-- ==== Sys2Proof/Word.lean ====
section
/-! DEFINITION. The widths of the block: step and response words, bytes, 16-bit operands, ring elements.
Every register value is an unsigned integer, bit 0 least significant (R9). -/

namespace Sys2Proof

/-- A 32-bit step word (R60), response data word (R63) or clock register (R22, R23). -/
abbrev Word := BitVec 32

/-- A 16-bit value: the `imm` field (R60) and `SRC_CNT` (R24). -/
abbrev Half := BitVec 16

/-- An 8-bit value: the `op` and `z` fields (R60), `HEAD`, `TAIL`, `COUNT` (R28, R29). -/
abbrev Byte := BitVec 8

/-- The cell of one ring element: `W_T ≤ 16` bits (R5), in the low bits of 16. -/
abbrev Elem := BitVec 16

/-- One bit as a number: 1 for true, 0 for false (the `bool` encoding of R64). -/
def bitNat (b : Bool) : Nat := if b then 1 else 0

end Sys2Proof
end

