-- ==== Sys2Proof/Config.lean ====
section
/-! DEFINITION. What an implementation fixes (the parameters of R5 to R7) and the free values: what the spec leaves open
and no rule gives a value. The free values are opaque, so every theorem holds whatever they are. -/

namespace Sys2Proof

/-- `W_DP`, the data-path width of one access to a multi-lane register: 8, 16 or 32 (R5). -/
inductive DataPath where
  | w8
  | w16
  | w32
  deriving DecidableEq, Repr, Inhabited

/-- The number of bits of `W_DP`. -/
def DataPath.bits : DataPath → Nat
  | .w8 => 8
  | .w16 => 16
  | .w32 => 32

/-- `L = 32 / W_DP`, the number of lanes of a 32-bit register (R7). -/
def DataPath.lanes (d : DataPath) : Nat := 32 / d.bits

/-- `ceil(16 / W_DP)`, the number of accesses `SRC_CNT` takes (R44). -/
def DataPath.cntLanes (d : DataPath) : Nat := (16 + d.bits - 1) / d.bits

/-- The parameters of R5. They are configuration: State carries them so that the one model is stated for every legal
value, and no step changes them (R6). DESIGN CHOICE, log entry 4, safe. -/
structure Params where
  /-- `N`, the ring capacity in elements. -/
  n : Nat
  /-- `W_T`, the width in bits of one ring element. -/
  wT : Nat
  /-- `F_TICK`, the wake source's countdown frequency in hertz. -/
  fTick : Nat
  /-- `W_DP`, the data-path width (Layer B only, R7). -/
  wDp : DataPath
  deriving DecidableEq, Repr

/-- The legal values of R5: `1 ≤ N ≤ 255`, `1 ≤ W_T ≤ 16`, `F_TICK ≥ 1`. -/
def Params.legal (p : Params) : Bool :=
  decide (1 ≤ p.n) && decide (p.n ≤ 255) && decide (1 ≤ p.wT) && decide (p.wT ≤ 16) && decide (1 ≤ p.fTick)

/-- `W_T` of this hardware, the byte of the consumer interface (R5, D14). -/
def Config.elemBits : Nat := 8

/-- OPEN in R5: what the implementer picks `N` from. -/
opaque Config.capacityChoice : Nat

/-- OPEN in R5: what the implementer picks `F_TICK` from. -/
opaque Config.frequencyChoice : Nat

/-- OPEN in R5: the implementer's `W_DP`. -/
opaque Config.dataPath : DataPath

/-- The parameters State.reset carries: the OPEN ones are any legal value (`N` ranges over 1 to 255, `F_TICK` over every
positive number). DESIGN CHOICE, log entry 4, safe. -/
def Config.params : Params where
  n := Config.capacityChoice % 255 + 1
  wT := Config.elemBits
  fTick := Config.frequencyChoice + 1
  wDp := Config.dataPath

/-- FREE VALUE (R133, V3): whether the `k`-th receive overrun keeps the old datum. Log entry 8. -/
opaque Config.overrunKeepsOld : Nat → Bool

/-- FREE VALUE (R57, V1): what a read of element `i` gives when nothing has written it since reset. Log entry 7. -/
opaque Config.unwritten : Nat → Elem

end Sys2Proof
end

