-- ==== Sys2Proof/Syntax.lean ====
section
/-! DEFINITION. The 19 step words of R66 as one inductive, one constructor per row of opcode_table.json, their classes
(R61), formats (R62), and the names under which a word is rejected (R67, R68). -/

namespace Sys2Proof

/-- An interrupt channel, an index into the handler table (R34): 0 is the tick channel, 1 the receive channel. -/
inductive Channel where
  | tick
  | rx
  deriving DecidableEq, Repr

/-- The operand bit of `IRQ.BIND` (R122). -/
def Channel.bit : Channel → Bool
  | .tick => false
  | .rx => true

/-- The channel an operand bit names (R122). -/
def Channel.ofBit (b : Bool) : Channel := if b then .rx else .tick

/-- The operations of R66. -/
inductive Instr where
  /-- `CRIT.ENTER`, `0x01` (R120). -/
  | critEnter
  /-- `CRIT.EXIT s`, `0x02` (R121). -/
  | critExit (token : Bool)
  /-- `IRQ.BIND ch`, `0x03` (R122). -/
  | irqBind (ch : Channel)
  /-- `RB.POP`, `0x10` (R83). -/
  | rbPop
  /-- `RB.PEEK`, `0x11` (R84). -/
  | rbPeek
  /-- `RB.ISEMPTY`, `0x12` (R85). -/
  | rbIsEmpty
  /-- `RB.ISFULL`, `0x13` (R86). -/
  | rbIsFull
  /-- `RB.AVAIL`, `0x14` (R87). -/
  | rbAvail
  /-- `CLK.INIT`, `0x20` (R102). -/
  | clkInit
  /-- `CLK.SETPERIOD p`, `0x21` (R103). -/
  | clkSetPeriod (p : Half)
  /-- `CLK.STOP`, `0x22` (R104). -/
  | clkStop
  /-- `CLK.GETMS`, `0x23` (R105). -/
  | clkGetMs
  /-- `CLK.STATUS`, `0x24` (R106). -/
  | clkStatus
  /-- `CLK.GETPERIOD`, `0x25` (R107). -/
  | clkGetPeriod
  /-- `EV.TICK`, `0x80` (R132). -/
  | evTick
  /-- `EV.RX d`, `0x81` (R133). -/
  | evRx (d : Elem)
  /-- `EV.ENV ok, ti`, `0x82` (R149). -/
  | evEnv (ok : Bool) (ti : Bool)
  /-- `ISR.TICK`, `0x90` (R108). -/
  | isrTick
  /-- `ISR.RX`, `0x91` (R93). -/
  | isrRx
  deriving DecidableEq, Repr

/-- The three classes of R61. -/
inductive StepClass where
  | hostCommand
  | sourceEvent
  | dispatch
  deriving DecidableEq, Repr

/-- The class of each operation (R61, R66). -/
def Instr.cls : Instr → StepClass
  | .critEnter => .hostCommand
  | .critExit _ => .hostCommand
  | .irqBind _ => .hostCommand
  | .rbPop => .hostCommand
  | .rbPeek => .hostCommand
  | .rbIsEmpty => .hostCommand
  | .rbIsFull => .hostCommand
  | .rbAvail => .hostCommand
  | .clkInit => .hostCommand
  | .clkSetPeriod _ => .hostCommand
  | .clkStop => .hostCommand
  | .clkGetMs => .hostCommand
  | .clkStatus => .hostCommand
  | .clkGetPeriod => .hostCommand
  | .evTick => .sourceEvent
  | .evRx _ => .sourceEvent
  | .evEnv _ _ => .sourceEvent
  | .isrTick => .dispatch
  | .isrRx => .dispatch

/-- The five formats of R62. -/
inductive Format where
  | z
  | s
  | p
  | d
  | e
  deriving DecidableEq, Repr

/-- Why a word is not a legal step word (R67, R68). -/
inductive DecodeError where
  /-- `z ≠ 0` (R60). -/
  | zNotZero
  /-- `op` is no code of R66 (R68). -/
  | reservedOp
  /-- An `imm` bit that the format does not use is 1 (R62). -/
  | unusedImmBits
  deriving DecidableEq, Repr

end Sys2Proof
end

