-- ==== Sys2Proof/WellFormed.lean ====
section
/-! DEFINITION. Which operand values an encoding admits. Only `EV.RX` carries an operand narrower than its field: its datum
has `W_T` bits (R62, R65). -/

namespace Sys2Proof

/-- The datum fits the `W_T` bits of format D (R62); every other operand has exactly the width of its field (R65). -/
def Instr.wellFormed (wT : Nat) : Instr → Bool
  | .critEnter => true
  | .critExit _ => true
  | .irqBind _ => true
  | .rbPop => true
  | .rbPeek => true
  | .rbIsEmpty => true
  | .rbIsFull => true
  | .rbAvail => true
  | .clkInit => true
  | .clkSetPeriod _ => true
  | .clkStop => true
  | .clkGetMs => true
  | .clkStatus => true
  | .clkGetPeriod => true
  | .evTick => true
  | .evRx d => decide (d.toNat < 2 ^ wT)
  | .evEnv _ _ => true
  | .isrTick => true
  | .isrRx => true

end Sys2Proof
end

