-- ==== Sys2Proof/Decode.lean ====
section
/-! DEFINITION. The decoder of R60 to R68, total on every 32-bit word and rejecting by name; the encoder, written from the
same formats; and the opcode map of R66 as a table of match and mask, beside which the decoder can be held. -/

namespace Sys2Proof

/-! ## Fields (R60) -/

/-- `op`, bits 31:24. -/
def fieldOp (w : Word) : Byte := w.extractLsb' 24 8

/-- `z`, bits 23:16. -/
def fieldZ (w : Word) : Byte := w.extractLsb' 16 8

/-- `imm`, bits 15:0. -/
def fieldImm (w : Word) : Half := w.extractLsb' 0 16

/-! ## Operands (R62, R65) -/

/-- Format Z: no bit of `imm` is used. -/
def decodeZ (imm : Half) (i : Instr) : Except DecodeError Instr :=
  if imm = 0#16 then .ok i else .error .unusedImmBits

/-- Format S: `imm[0]` is the operand, `imm[15:1]` must be 0. -/
def decodeS (imm : Half) (mk : Bool → Instr) : Except DecodeError Instr :=
  if imm.toNat < 2 then .ok (mk (imm.getLsbD 0)) else .error .unusedImmBits

/-- Format D: `imm[W_T-1:0]` is the datum, the bits above must be 0. -/
def decodeD (wT : Nat) (imm : Half) : Except DecodeError Instr :=
  if imm.toNat < 2 ^ wT then .ok (.evRx imm) else .error .unusedImmBits

/-- Format E: `imm[0]` is `ti`, `imm[1]` is `ok`, `imm[15:2]` must be 0. -/
def decodeE (imm : Half) : Except DecodeError Instr :=
  if imm.toNat < 4 then .ok (.evEnv (imm.getLsbD 1) (imm.getLsbD 0)) else .error .unusedImmBits

/-- The opcode map of R66; every other `op` is reserved (R68). -/
def decodeOp (wT : Nat) (op : Byte) (imm : Half) : Except DecodeError Instr :=
  match op.toNat with
  | 0x01 => decodeZ imm .critEnter
  | 0x02 => decodeS imm .critExit
  | 0x03 => decodeS imm (fun b => .irqBind (Channel.ofBit b))
  | 0x10 => decodeZ imm .rbPop
  | 0x11 => decodeZ imm .rbPeek
  | 0x12 => decodeZ imm .rbIsEmpty
  | 0x13 => decodeZ imm .rbIsFull
  | 0x14 => decodeZ imm .rbAvail
  | 0x20 => decodeZ imm .clkInit
  | 0x21 => .ok (.clkSetPeriod imm)
  | 0x22 => decodeZ imm .clkStop
  | 0x23 => decodeZ imm .clkGetMs
  | 0x24 => decodeZ imm .clkStatus
  | 0x25 => decodeZ imm .clkGetPeriod
  | 0x80 => decodeZ imm .evTick
  | 0x81 => decodeD wT imm
  | 0x82 => decodeE imm
  | 0x90 => decodeZ imm .isrTick
  | 0x91 => decodeZ imm .isrRx
  | _ => .error .reservedOp

/-- The step word's operation, or why it is no step word (R60, R62, R66 to R68), for elements of `wT` bits. -/
def decode (wT : Nat) (w : Word) : Except DecodeError Instr :=
  if fieldZ w = 0#8 then decodeOp wT (fieldOp w) (fieldImm w) else .error .zNotZero

/-- A word on the command port: the legal host commands, and nothing else (R67). -/
def decodeHost (wT : Nat) (w : Word) : Option Instr :=
  match decode wT w with
  | .ok i => if i.cls = .hostCommand then some i else none
  | .error _ => none

/-- Whether `op[7:4]` is `0x8` or `0x9`: the word names a source event or a dispatch step and never stands on the command
port (R61). -/
def isTraceWord (w : Word) : Bool :=
  let family := (fieldOp w).toNat / 16
  decide (family = 8) || decide (family = 9)

/-- What opcode_table.json's word means to the decoder: a step word is one 32-bit value, never split into bytes (R42,
R60), so the table's numbering of its bits is the word's own. `W_T = 8`, the width for which the table shows format D. -/
def decodeTableWord (nbits w : Nat) : Option Instr :=
  if nbits ≤ 32 ∧ w < 2 ^ 32 then (decode Config.elemBits (BitVec.ofNat 32 w)).toOption else none

/-! ## The encoder -/

/-- The `op` column of R66. -/
def Instr.opcode : Instr → Byte
  | .critEnter => 0x01#8
  | .critExit _ => 0x02#8
  | .irqBind _ => 0x03#8
  | .rbPop => 0x10#8
  | .rbPeek => 0x11#8
  | .rbIsEmpty => 0x12#8
  | .rbIsFull => 0x13#8
  | .rbAvail => 0x14#8
  | .clkInit => 0x20#8
  | .clkSetPeriod _ => 0x21#8
  | .clkStop => 0x22#8
  | .clkGetMs => 0x23#8
  | .clkStatus => 0x24#8
  | .clkGetPeriod => 0x25#8
  | .evTick => 0x80#8
  | .evRx _ => 0x81#8
  | .evEnv _ _ => 0x82#8
  | .isrTick => 0x90#8
  | .isrRx => 0x91#8

/-- The `imm` field of R62 and R65, unused bits 0. -/
def Instr.operandField : Instr → Half
  | .critEnter => 0#16
  | .critExit token => BitVec.ofNat 16 (bitNat token)
  | .irqBind ch => BitVec.ofNat 16 (bitNat ch.bit)
  | .rbPop => 0#16
  | .rbPeek => 0#16
  | .rbIsEmpty => 0#16
  | .rbIsFull => 0#16
  | .rbAvail => 0#16
  | .clkInit => 0#16
  | .clkSetPeriod p => p
  | .clkStop => 0#16
  | .clkGetMs => 0#16
  | .clkStatus => 0#16
  | .clkGetPeriod => 0#16
  | .evTick => 0#16
  | .evRx d => d
  | .evEnv ok ti => BitVec.ofNat 16 (2 * bitNat ok + bitNat ti)
  | .isrTick => 0#16
  | .isrRx => 0#16

/-- The step word: `op ++ z ++ imm` with `z = 0` (R60). -/
def encode (i : Instr) : Word := i.opcode ++ (0#8 ++ i.operandField)

/-! ## The opcode map as a table (R62, R66) -/

/-- One row of R66: the mnemonic, the `op` value and the format. -/
structure OpcodeRow where
  mnemonic : String
  op : Byte
  format : Format
  deriving DecidableEq, Repr

/-- The match column: `op` in bits 31:24, every other bit 0. -/
def OpcodeRow.matchWord (r : OpcodeRow) : Word := r.op ++ 0#24

/-- The mask column of R62: 1 in every bit the decoder compares. -/
def Format.mask (wT : Nat) : Format → Word
  | .z => 0xFFFFFFFF#32
  | .s => 0xFFFFFFFE#32
  | .p => 0xFFFF0000#32
  | .d => 0xFFFFFFFF#32 ^^^ BitVec.ofNat 32 (2 ^ wT - 1)
  | .e => 0xFFFFFFFC#32

/-- A word selects a row iff `(w AND mask) = match` (R62). -/
def OpcodeRow.selects (wT : Nat) (r : OpcodeRow) (w : Word) : Bool :=
  decide (w &&& r.format.mask wT = r.matchWord)

/-- The critical-section family of R66. -/
def criticalRows : List OpcodeRow :=
  [⟨"CRIT.ENTER", 0x01#8, .z⟩, ⟨"CRIT.EXIT", 0x02#8, .s⟩, ⟨"IRQ.BIND", 0x03#8, .s⟩]

/-- The ring-buffer family of R66. -/
def ringRows : List OpcodeRow :=
  [⟨"RB.POP", 0x10#8, .z⟩, ⟨"RB.PEEK", 0x11#8, .z⟩, ⟨"RB.ISEMPTY", 0x12#8, .z⟩, ⟨"RB.ISFULL", 0x13#8, .z⟩,
    ⟨"RB.AVAIL", 0x14#8, .z⟩]

/-- The clock family of R66. -/
def clockRows : List OpcodeRow :=
  [⟨"CLK.INIT", 0x20#8, .z⟩, ⟨"CLK.SETPERIOD", 0x21#8, .p⟩, ⟨"CLK.STOP", 0x22#8, .z⟩, ⟨"CLK.GETMS", 0x23#8, .z⟩,
    ⟨"CLK.STATUS", 0x24#8, .z⟩, ⟨"CLK.GETPERIOD", 0x25#8, .z⟩]

/-- The source events and dispatch steps of R66. -/
def traceRows : List OpcodeRow :=
  [⟨"EV.TICK", 0x80#8, .z⟩, ⟨"EV.RX", 0x81#8, .d⟩, ⟨"EV.ENV", 0x82#8, .e⟩, ⟨"ISR.TICK", 0x90#8, .z⟩,
    ⟨"ISR.RX", 0x91#8, .z⟩]

/-- The whole map of R66, 19 rows. -/
def opcodeRows : List OpcodeRow := criticalRows ++ ringRows ++ clockRows ++ traceRows

/-- The mnemonic of each operation (R66). -/
def Instr.mnemonic : Instr → String
  | .critEnter => "CRIT.ENTER"
  | .critExit _ => "CRIT.EXIT"
  | .irqBind _ => "IRQ.BIND"
  | .rbPop => "RB.POP"
  | .rbPeek => "RB.PEEK"
  | .rbIsEmpty => "RB.ISEMPTY"
  | .rbIsFull => "RB.ISFULL"
  | .rbAvail => "RB.AVAIL"
  | .clkInit => "CLK.INIT"
  | .clkSetPeriod _ => "CLK.SETPERIOD"
  | .clkStop => "CLK.STOP"
  | .clkGetMs => "CLK.GETMS"
  | .clkStatus => "CLK.STATUS"
  | .clkGetPeriod => "CLK.GETPERIOD"
  | .evTick => "EV.TICK"
  | .evRx _ => "EV.RX"
  | .evEnv _ _ => "EV.ENV"
  | .isrTick => "ISR.TICK"
  | .isrRx => "ISR.RX"

end Sys2Proof
end

