-- ==== Sys2Proof/Machine/State.lean ====
section
/-! DEFINITION. The state of the block (R22 to R39), the Layer B state (R37), the script that says which agent steps next
(R21, R72), the reasons a step stops, and the state after reset (R39, R161). All of it plain data. -/

namespace Sys2Proof.Machine

/-- `BUF`, the ring storage (R27, R40): the elements written since reset, as (index, element) pairs with strictly rising
indices. An index that is not listed has no stored value. DESIGN CHOICE, log entries 5 and 7. -/
abbrev Memory := List (Nat × Elem)

/-- The response status of R63; `0b10` is never produced, so it has no constructor (V11). -/
inductive Status where
  | ok
  | empty
  | err
  deriving DecidableEq, Repr

/-- The 2-bit code of each status (R63). -/
def Status.code : Status → BitVec 2
  | .ok => 0b00#2
  | .empty => 0b01#2
  | .err => 0b11#2

/-- A response: status and 32-bit data word (R63). -/
structure Response where
  st : Status
  d : Word
  deriving DecidableEq, Repr

/-- `CTX` together with `UPC_ISR` (R37): the main context holds the core, or the handler of a channel does and `upc` is its
next micro-step. -/
inductive Ctx where
  | main
  | isr (ch : Channel) (upc : Nat)
  deriving DecidableEq, Repr

/-- `UPC_MAIN` (R37): idle between commands, or the command in progress and its next micro-step. -/
inductive MainSeq where
  | idle
  | busy (cmd : Instr) (upc : Nat)
  deriving DecidableEq, Repr

/-- The Layer B state of R37 with the temporaries of R91 and R112. Outside an operation in progress the temporaries mean
nothing; log entry 17. -/
@[ext]
structure Micro where
  /-- `CTX` and `UPC_ISR`. -/
  ctx : Ctx
  /-- `UPC_MAIN`. -/
  main : MainSeq
  /-- `TMP`, the lanes a multi-lane read has collected. -/
  tmp : Word
  /-- `SAVED`, the copy of `IE` a bracketed command holds. -/
  saved : Bool
  /-- `CARRY`, between the lane additions of `ISR.TICK`. -/
  carry : Bool
  /-- `c` of the ring commands (R91). -/
  c : Byte
  /-- `t` of the ring commands (R91). -/
  t : Byte
  /-- `v` of the ring commands (R91). -/
  v : Elem
  /-- `q` of `CLK.SETPERIOD` (R112). -/
  q : Half
  /-- `b0` of `CLK.STATUS` (R112). -/
  b0 : Bool
  /-- `b1` of `CLK.STATUS` (R112). -/
  b1 : Bool
  /-- `c` of `ISR.RX` (R91). -/
  isrC : Byte
  /-- `h` of `ISR.RX` (R91). -/
  isrH : Byte
  deriving DecidableEq, Repr

/-- One line of a script: which agent makes the next step (R21, R72, R141). -/
inductive Line where
  /-- A step word of the trace (R61, R72): a host command, a source event or a dispatch, done whole (Layer A). -/
  | word (w : Word)
  /-- The host drives this word on the command port, where event and dispatch codes are illegal (R67, R68); done whole. -/
  | port (w : Word)
  /-- The platform asserts reset (R160). -/
  | reset
  /-- Layer B: the host drives this word on the command port and its micro-sequence begins (R37, R91, R112). -/
  | start (w : Word)
  /-- Layer B: the dispatcher enters the handler of this channel (R136). -/
  | enter (ch : Channel)
  /-- Layer B: the context that holds the core makes its next micro-step (R91, R112). -/
  | micro
  deriving DecidableEq, Repr

/-- Why the machine stops. The block itself raises no fault (R130): each of these is a step the spec says cannot happen. -/
inductive Fault where
  /-- Raised by `step` when the script pointer is past the last line: the run has ended (R72). Safe. -/
  | scriptEnded
  /-- Raised by `EV.TICK` while `SRC_EN = 0`: not enabled, so the trace is no run (R69, R132, V10). Safe. -/
  | tickSourceDisabled
  /-- Raised by a dispatch that R134 does not enable: the trace is no run (R69, V10). Safe. -/
  | dispatchNotEnabled (ch : Channel)
  /-- Raised when the host presents a command while a command is in progress or a handler
  holds the core (R52, R141; Layer B only). Safe. -/
  | mainContextBusy
  /-- Raised by a Layer B micro-step when no operation is in progress, or past the end of one. Safe. -/
  | noMicroStep
  /-- Raised by an access to `BUF[i]` with `i ≥ N` (R57); no run reaches it (R80). Safe. -/
  | noSuchElement (i : Nat)
  deriving DecidableEq, Repr

/-- Why a step has no meaning. -/
inductive Refusal where
  /-- An instruction whose arm of `exec` has no meaning yet. Safe. -/
  | notModelled (mnemonic : String)
  /-- Raised for a trace word of the event or dispatch class that names no step: the trace is malformed (R68). Safe. -/
  | malformedTrace (e : DecodeError)
  deriving DecidableEq, Repr

/-- Everything the spec gives the machine (R39, R37), its parameters (R5), and the model's own fields. -/
@[ext]
structure State where
  /-- The parameters of R5; no step writes them (R6). -/
  params : Params
  /-- `ACC` (R22). -/
  acc : Word
  /-- `TICK_PERIOD_MS` (R23). -/
  tickPeriodMs : Word
  /-- `SRC_CNT` (R24). -/
  srcCnt : Half
  /-- `SRC_EN` (R25). -/
  srcEn : Bool
  /-- `FAULT` (R26). -/
  fault : Bool
  /-- `BUF` (R27). -/
  buf : Memory
  /-- `HEAD` (R28). -/
  head : Byte
  /-- `TAIL` (R28). -/
  tail : Byte
  /-- `COUNT` (R29). -/
  count : Byte
  /-- `IE` (R30). -/
  ie : Bool
  /-- `TICK_PEND` (R31). -/
  tickPend : Bool
  /-- `RX_PEND` (R32). -/
  rxPend : Bool
  /-- `RX_DATA` (R33). -/
  rxData : Elem
  /-- `BOUND[0]` (R34). -/
  boundTick : Bool
  /-- `BOUND[1]` (R34). -/
  boundRx : Bool
  /-- `env.time_invalid`, an input level (R35). -/
  envTimeInvalid : Bool
  /-- `env.src_ok`, an input level (R36). -/
  envSrcOk : Bool
  /-- The response the last step drove, `none` if it drove none (R63). -/
  resp : Option Response
  /-- The Layer B state (R37). -/
  micro : Micro
  /-- The script (R72). -/
  script : List Line
  /-- The script pointer `sp` (R21). -/
  sp : Nat
  /-- The model's own counter of free values drawn (log entry 8); not the spec's. -/
  draws : Nat
  deriving DecidableEq, Repr

/-- The Layer B state of R161: `CTX = MAIN`, nothing in progress. The temporaries are DESIGN CHOICE 0, log entry 17. -/
def Micro.idle : Micro where
  ctx := .main
  main := .idle
  tmp := 0#32
  saved := false
  carry := false
  c := 0#8
  t := 0#8
  v := 0#16
  q := 0#16
  b0 := false
  b1 := false
  isrC := 0#8
  isrH := 0#8

/-- The reset state of R39 and R161 for given parameters, with the input levels of R35 and R36 and no script placed.
`rxData` (log entry 6), `resp` (log entry 9), `script` (log entry 2) and `draws` (log entry 8) are DESIGN CHOICE. -/
def State.resetWith (p : Params) : State where
  params := p
  acc := 0#32
  tickPeriodMs := 0#32
  srcCnt := 0#16
  srcEn := false
  fault := false
  buf := []
  head := 0#8
  tail := 0#8
  count := 0#8
  ie := false
  tickPend := false
  rxPend := false
  rxData := 0#16
  boundTick := false
  boundRx := false
  envTimeInvalid := false
  envSrcOk := true
  resp := none
  micro := .idle
  script := []
  sp := 0
  draws := 0

/-- The machine right after reset, at whatever parameters the implementer fixed (R5, R161). -/
def State.reset : State := State.resetWith Config.params

end Sys2Proof.Machine
end

