-- ==== Sys2Proof/Machine/Ops.lean ====
section
/-! DEFINITION. The named operations every meaning is written with: the ring storage primitives (R57), index arithmetic
(R80), responses (R63), the critical-section primitives of R10, dispatch of a handler (R134 to R138), reset (R160). -/

namespace Sys2Proof.Machine

/-! ## The ring storage (R40, R57) -/

/-- The canonical form: strictly rising indices. No entry can equal what an unlisted index reads as, for that is no stored
value at all. -/
def Memory.wf : Memory → Bool
  | [] => true
  | [_] => true
  | a :: b :: rest => decide (a.1 < b.1) && Memory.wf (b :: rest)

/-- The element stored at an index, `none` if nothing has been written there since reset (R57). -/
def Memory.read? : Memory → Nat → Option Elem
  | [], _ => none
  | (j, v) :: rest, i => if i = j then some v else Memory.read? rest i

/-- Replaces the element at one index; the others keep their values (R57). -/
def Memory.write : Memory → Nat → Elem → Memory
  | [], i, v => [(i, v)]
  | (j, u) :: rest, i, v =>
    if i < j then (i, v) :: (j, u) :: rest
    else if i = j then (i, v) :: rest
    else (j, u) :: Memory.write rest i v

/-- The low `W_T` bits of a value: an element holds no others (R5). -/
def fitElem (wT : Nat) (v : Elem) : Elem := BitVec.ofNat 16 (v.toNat % 2 ^ wT)

/-- What a read of `BUF[i]` gives: the element last written, or a free value if none has been (R57; log entry 7). -/
def elemAt (s : State) (i : Nat) : Elem :=
  fitElem s.params.wT ((s.buf.read? i).getD (Config.unwritten i))

/-- `BUF[i]`, defined for `i < N` (R57; log entry 14). -/
def readBuf (s : State) (i : Nat) : Except Fault Elem :=
  if i < s.params.n then .ok (elemAt s i) else .error (.noSuchElement i)

/-- `BUF[i] <- v`, defined for `i < N` (R57; log entry 14). -/
def writeBuf (s : State) (i : Nat) (v : Elem) : Except Fault State :=
  if i < s.params.n then .ok { s with buf := s.buf.write i (fitElem s.params.wT v) }
  else .error (.noSuchElement i)

/-- `next(i) = (i + 1) mod N` on natural numbers (R80). -/
def nextIndex (n : Nat) (i : Byte) : Byte := BitVec.ofNat 8 ((i.toNat + 1) % n)

/-! ## Responses (R63, R64) -/

/-- `respond(st, d)` (R10). -/
def respond (st : Status) (d : Word) (s : State) : State := { s with resp := some ⟨st, d⟩ }

/-- A step that drives no response: a source event, a dispatch (R63), or an unfinished micro-sequence. -/
def silent (s : State) : State := { s with resp := none }

/-! ## Critical section (R10, R120, R121) -/

/-- `s <- crit_enter()`: the value `IE` had, and `IE` cleared, in one access. -/
def critEnter (s : State) : Bool × State := (s.ie, { s with ie := false })

/-- `crit_exit(s)`: `IE <- s`. -/
def critExit (token : Bool) (s : State) : State := { s with ie := token }

/-- `SAVED <- IE; IE <- 0`, the first micro-step of a bracketed command (R91, R112). -/
def saveIe (s : State) : State :=
  let (token, s) := critEnter s
  { s with micro.saved := token }

/-- `IE <- SAVED`, the micro-step that ends the bracket (R91, R112). -/
def restoreIe (s : State) : State := critExit s.micro.saved s

/-! ## Channels (R34, R134) -/

/-- `PEND[ch]` (R134). -/
def pending (s : State) : Channel → Bool
  | .tick => s.tickPend
  | .rx => s.rxPend

/-- `BOUND[ch]` (R34). -/
def bound (s : State) : Channel → Bool
  | .tick => s.boundTick
  | .rx => s.boundRx

/-- `BOUND[ch] <- 1` (R122). -/
def bindHandler (ch : Channel) (s : State) : State :=
  match ch with
  | .tick => { s with boundTick := true }
  | .rx => { s with boundRx := true }

/-- Whether the main context holds the core and has no command in progress, so that the host can present one (R141). At
Layer A it always can. -/
def hostReady (s : State) : Bool := decide (s.micro.ctx = .main) && decide (s.micro.main = .idle)

/-- The dispatch condition of R134. While a handler runs no other can be dispatched (R136, R138). -/
def dispatchable (ch : Channel) (s : State) : Bool :=
  s.ie && bound s ch && pending s ch && decide (s.micro.ctx = .main)

/-! ## Entry to and return from a handler (R135 to R138)

Taking an interrupt saves nothing in the block and writes no register of it: only `CTX` changes hands. -/

/-- Entry (R136): the handler of the channel holds the core, at its first micro-step. -/
def enterHandler (ch : Channel) (s : State) : State := { s with micro.ctx := .isr ch 1 }

/-- Return (R137): the main context holds the core again, `IE` as it was. -/
def leaveHandler (s : State) : State := { s with micro.ctx := .main }

/-- The dispatch step of R135: entry, the handler's body, return, as one transition, with no response (R63). -/
def dispatch (ch : Channel) (body : State → Except Fault State) (s : State) : Host.Outcome State Fault Refusal :=
  if dispatchable ch s then
    match body (enterHandler ch (silent s)) with
    | .ok s' => .next (leaveHandler s')
    | .error f => .fault f
  else .fault (.dispatchNotEnabled ch)

/-! ## Reset (R160, R161) -/

/-- Reset of a running block: every element of R39 and the Layer B state as R161 says. The input levels are no state of
the block and keep their values (R35, R36); the script goes on, and so does the count of free values drawn. -/
def resetBlock (s : State) : State :=
  { State.resetWith s.params with
    envTimeInvalid := s.envTimeInvalid, envSrcOk := s.envSrcOk,
    script := s.script, sp := s.sp, draws := s.draws }

end Sys2Proof.Machine
end

