-- ==== Sys2Proof/Machine/Operands.lean ====
section
/-! DEFINITION. The result forms of R64, and the operand arithmetic of the clock (R100, R101) and of lanes (R9, R41). The
operands themselves are unsigned fields that the decoder extracts (R65). -/

namespace Sys2Proof.Machine

/-! ## Results (R64) -/

/-- `bool`: 1 for true, 0 for false, status `OK` either way. -/
def respondBool (b : Bool) (s : State) : State := respond .ok (BitVec.ofNat 32 (bitNat b)) s

/-- `u32`: the value itself. -/
def respondWord (v : Word) (s : State) : State := respond .ok v s

/-- `optional<T>` present: the element zero-extended. -/
def respondElem (v : Elem) (s : State) : State := respond .ok (v.setWidth 32) s

/-- `optional<T>` absent. -/
def respondEmpty (s : State) : State := respond .empty 0#32 s

/-- No result. -/
def respondVoid (s : State) : State := respond .ok 0#32 s

/-- An illegal host command (R67): nothing else happens. -/
def respondIllegal (s : State) : State := respond .err 0#32 s

/-! ## Clock arithmetic -/

/-- `period_ms(p) = (p * 1000) div F_TICK` on natural numbers, in the 32-bit register (R101). -/
def periodMs (fTick : Nat) (p : Half) : Word := BitVec.ofNat 32 (p.toNat * 1000 / fTick)

/-- `(ACC + TICK_PERIOD_MS) mod 2^32` (R100). -/
def accumulate (acc period : Word) : Word := BitVec.ofNat 32 (acc.toNat + period.toNat)

/-! ## Lanes (R9, R41), on natural numbers -/

/-- `X.lane[i] = X[(i+1)*W_DP-1 : i*W_DP]`. -/
def lane (d : DataPath) (x i : Nat) : Nat := x / 2 ^ (i * d.bits) % 2 ^ d.bits

/-- `X.lane[i] <- v`: the lanes below and above keep their values. -/
def setLane (d : DataPath) (x i v : Nat) : Nat :=
  x % 2 ^ (i * d.bits) + v % 2 ^ d.bits * 2 ^ (i * d.bits) + x / 2 ^ ((i + 1) * d.bits) * 2 ^ ((i + 1) * d.bits)

/-- One lane of a 32-bit register replaced. -/
def setLane32 (d : DataPath) (x : Word) (i v : Nat) : Word := BitVec.ofNat 32 (setLane d x.toNat i v)

/-- One lane of `SRC_CNT` replaced; with `W_DP = 32` its one lane is the whole register. -/
def setLane16 (d : DataPath) (x : Half) (i v : Nat) : Half := BitVec.ofNat 16 (setLane d x.toNat i v)

end Sys2Proof.Machine
end

