-- ==== Sys2Proof/Machine/Flags.lean ====
section
/-! DEFINITION. The flags the instruction rules write (their "flags written" lines): the pending flags, the source enable
and the fault flag; and the status word `CLK.STATUS` makes of two of them (R106). -/

namespace Sys2Proof.Machine

/-- `TICK_PEND <- 1` (R132). -/
def raiseTick (s : State) : State := { s with tickPend := true }

/-- `TICK_PEND <- 0`, by the tick handler alone (R31, R108). -/
def clearTick (s : State) : State := { s with tickPend := false }

/-- `RX_PEND <- 1` (R133). -/
def raiseRx (s : State) : State := { s with rxPend := true }

/-- `RX_PEND <- 0`, by the receive handler alone (R32, R93). -/
def clearRx (s : State) : State := { s with rxPend := false }

/-- `FAULT <- b` (R102). -/
def setFault (b : Bool) (s : State) : State := { s with fault := b }

/-- The Off state of the wake source (R103, R104): disabled, no countdown, period 0. -/
def sourceOff (s : State) : State := { s with srcEn := false, srcCnt := 0#16, tickPeriodMs := 0#32 }

/-- The wake source programmed with `p` and enabled (R103). -/
def sourceOn (p : Half) (s : State) : State :=
  { s with srcEn := true, srcCnt := p, tickPeriodMs := periodMs s.params.fTick p }

/-- `zext_32(SRC_EN ++ FAULT)`: bit 0 `FAULT`, bit 1 `SRC_EN` (R106). -/
def statusWord (srcEn fault : Bool) : Word := BitVec.ofNat 32 (2 * bitNat srcEn + bitNat fault)

end Sys2Proof.Machine
end

