-- ==== Sys2Proof/Machine/Clock.lean ====
section
/-! DEFINITION. The clock operations (41_clock.md): the six clock commands and the tick handler. -/

namespace Sys2Proof.Machine

/-- `CLK.INIT` (R102): samples `env.time_invalid` and writes nothing but `FAULT`. -/
def execClkInit (s : State) : Host.Outcome State Fault Refusal :=
  .next (respondBool s.envTimeInvalid (setFault s.envTimeInvalid s))

/-- `CLK.SETPERIOD p` (R103). `p = 0` is Off and does not consult `env.src_ok`; a refused programming leaves the Off
state. -/
def execClkSetPeriod (p : Half) (s : State) : Host.Outcome State Fault Refusal :=
  let (token, s) := critEnter s
  if p = 0#16 then .next (respondBool true (critExit token (sourceOff s)))
  else if s.envSrcOk = false then .next (respondBool false (critExit token (sourceOff s)))
  else .next (respondBool true (critExit token (sourceOn p s)))

/-- `CLK.STOP` (R104). -/
def execClkStop (s : State) : Host.Outcome State Fault Refusal :=
  let (token, s) := critEnter s
  .next (respondBool true (critExit token (sourceOff s)))

/-- `CLK.GETMS` (R105). -/
def execClkGetMs (s : State) : Host.Outcome State Fault Refusal :=
  let (token, s) := critEnter s
  .next (respondWord s.acc (critExit token s))

/-- `CLK.STATUS` (R106). -/
def execClkStatus (s : State) : Host.Outcome State Fault Refusal :=
  let (token, s) := critEnter s
  .next (respondWord (statusWord s.srcEn s.fault) (critExit token s))

/-- `CLK.GETPERIOD` (R107). -/
def execClkGetPeriod (s : State) : Host.Outcome State Fault Refusal :=
  let (token, s) := critEnter s
  .next (respondWord s.tickPeriodMs (critExit token s))

/-- The body of the tick handler (R108); `SRC_EN` is not consulted. -/
def tickHandler (s : State) : Except Fault State :=
  .ok (clearTick { s with acc := accumulate s.acc s.tickPeriodMs })

/-- `ISR.TICK` (R108, R135). -/
def execIsrTick (s : State) : Host.Outcome State Fault Refusal := dispatch .tick tickHandler s

end Sys2Proof.Machine
end

