-- ==== Sys2Proof/Machine/Critical.lean ====
section
/-! DEFINITION. The critical-section and interrupt-setup commands (42_critical_section.md). -/

namespace Sys2Proof.Machine

/-- `CRIT.ENTER` (R120). -/
def execCritEnter (s : State) : Host.Outcome State Fault Refusal :=
  let (token, s) := critEnter s
  .next (respondBool token s)

/-- `CRIT.EXIT s` (R121). -/
def execCritExit (token : Bool) (s : State) : Host.Outcome State Fault Refusal :=
  .next (respondVoid (critExit token s))

/-- `IRQ.BIND ch` (R122). -/
def execIrqBind (ch : Channel) (s : State) : Host.Outcome State Fault Refusal :=
  .next (respondVoid (bindHandler ch s))

end Sys2Proof.Machine
end

