-- ==== Sys2Proof/Machine/Events.lean ====
section
/-! DEFINITION. The source events (60_exceptions.md): what the wake source, the receive source and the environment do. None
has a response (R63). -/

namespace Sys2Proof.Machine

/-- `EV.TICK` (R132): enabled iff `SRC_EN = 1`; a tick that finds `TICK_PEND = 1` merges with it (R139). -/
def execEvTick (s : State) : Host.Outcome State Fault Refusal :=
  if s.srcEn then .next (raiseTick (silent s)) else .fault .tickSourceDisabled

/-- Whether `ISR.RX` is in progress at Layer B with its datum already stored (line 4 of R91) and `RX_PEND` not yet cleared
(line 7). Never at Layer A, where no handler is in progress between steps. -/
def rxStored (s : State) : Bool :=
  match s.micro.ctx with
  | .main => false
  | .isr .tick _ => false
  | .isr .rx u => decide (5 ≤ u) && decide (u ≤ 7) && decide (s.micro.isrC.toNat ≠ s.params.n)

/-- An overrun (R133): the old datum or the new one survives; the free value drawn is counted (log entry 8). -/
def overrun (keepOld : Bool) (d : Elem) (s : State) : State :=
  { s with rxData := if keepOld then s.rxData else fitElem s.params.wT d, draws := s.draws + 1 }

/-- The datum `RX_DATA` holds after a receive event (R133): the new one, or on an overrun one of the two, by a free value
(log entry 8). Where `ISR.RX` has already stored the old datum and is about to clear `RX_PEND`, the new one is lost: the
outcome R49 leaves of the two. DEDUCED, log entry 23. -/
def receive (d : Elem) (s : State) : State :=
  if s.rxPend then overrun (rxStored s || Config.overrunKeepsOld s.draws) d s
  else { s with rxData := fitElem s.params.wT d }

/-- `EV.RX d` (R133): always enabled. -/
def execEvRx (d : Elem) (s : State) : Host.Outcome State Fault Refusal :=
  .next (raiseRx (receive d (silent s)))

/-- `EV.ENV ok, ti` (R149): changes the input levels and no state of the block. -/
def execEvEnv (ok ti : Bool) (s : State) : Host.Outcome State Fault Refusal :=
  .next { silent s with envTimeInvalid := ti, envSrcOk := ok }

end Sys2Proof.Machine
end

