-- ==== Sys2Proof/Machine/Ring.lean ====
section
/-! DEFINITION. The ring-buffer operations (40_ringbuffer.md): the five consumer commands and the receive handler. -/

namespace Sys2Proof.Machine

/-- `tryPush(v)` (R82): the result `ok` and the state after it. A push into a full buffer changes nothing (R89). It faults
only where `HEAD` is no index (R57), which no run reaches. -/
def tryPush (v : Elem) (s : State) : Except Fault (Bool × State) :=
  if s.count.toNat = s.params.n then .ok (false, s)
  else
    match writeBuf s s.head.toNat v with
    | .ok s => .ok (true, { s with head := nextIndex s.params.n s.head, count := s.count + 1#8 })
    | .error f => .error f

/-- `RB.POP` (R83). -/
def execRbPop (s : State) : Host.Outcome State Fault Refusal :=
  let (token, s) := critEnter s
  if s.count = 0#8 then .next (respondEmpty (critExit token s))
  else
    match readBuf s s.tail.toNat with
    | .ok v =>
      let s := { s with tail := nextIndex s.params.n s.tail, count := s.count - 1#8 }
      .next (respondElem v (critExit token s))
    | .error f => .fault f

/-- `RB.PEEK` (R84). -/
def execRbPeek (s : State) : Host.Outcome State Fault Refusal :=
  let (token, s) := critEnter s
  if s.count = 0#8 then .next (respondEmpty (critExit token s))
  else
    match readBuf s s.tail.toNat with
    | .ok v => .next (respondElem v (critExit token s))
    | .error f => .fault f

/-- `RB.ISEMPTY` (R85). -/
def execRbIsEmpty (s : State) : Host.Outcome State Fault Refusal :=
  .next (respondBool (decide (s.count = 0#8)) s)

/-- `RB.ISFULL` (R86). -/
def execRbIsFull (s : State) : Host.Outcome State Fault Refusal :=
  .next (respondBool (decide (s.count.toNat = s.params.n)) s)

/-- `RB.AVAIL` (R87). -/
def execRbAvail (s : State) : Host.Outcome State Fault Refusal :=
  .next (respondBool (decide (0 < s.count.toNat)) s)

/-- The body of the receive handler (R93): push the waiting datum, discard `ok`, clear the flag either way. -/
def rxHandler (s : State) : Except Fault State :=
  match tryPush s.rxData s with
  | .ok (_, s) => .ok (clearRx s)
  | .error f => .error f

/-- `ISR.RX` (R93, R135). -/
def execIsrRx (s : State) : Host.Outcome State Fault Refusal := dispatch .rx rxHandler s

end Sys2Proof.Machine
end

