-- ==== Sys2Proof/Machine/Dispatch.lean ====
section
/-! DEFINITION. One arm per operation of R66: the Layer A transition of each (R47). -/

namespace Sys2Proof.Machine

def exec (i : Instr) (s : State) : Host.Outcome State Fault Refusal :=
  match i with
  | .critEnter => Sys2Proof.Machine.execCritEnter s
  | .critExit token => Sys2Proof.Machine.execCritExit token s
  | .irqBind ch => Sys2Proof.Machine.execIrqBind ch s
  | .rbPop => Sys2Proof.Machine.execRbPop s
  | .rbPeek => Sys2Proof.Machine.execRbPeek s
  | .rbIsEmpty => Sys2Proof.Machine.execRbIsEmpty s
  | .rbIsFull => Sys2Proof.Machine.execRbIsFull s
  | .rbAvail => Sys2Proof.Machine.execRbAvail s
  | .clkInit => Sys2Proof.Machine.execClkInit s
  | .clkSetPeriod p => Sys2Proof.Machine.execClkSetPeriod p s
  | .clkStop => Sys2Proof.Machine.execClkStop s
  | .clkGetMs => Sys2Proof.Machine.execClkGetMs s
  | .clkStatus => Sys2Proof.Machine.execClkStatus s
  | .clkGetPeriod => Sys2Proof.Machine.execClkGetPeriod s
  | .evTick => Sys2Proof.Machine.execEvTick s
  | .evRx d => Sys2Proof.Machine.execEvRx d s
  | .evEnv ok ti => Sys2Proof.Machine.execEvEnv ok ti s
  | .isrTick => Sys2Proof.Machine.execIsrTick s
  | .isrRx => Sys2Proof.Machine.execIsrRx s

end Sys2Proof.Machine
end

