-- ==== Sys2Proof/Machine/Micro.lean ====
section
/-! DEFINITION. Layer B (R8): the micro-sequences of R91 and R112, numbered as there. Each micro-step is one indivisible
access; the context that holds the core makes the next one, and a handler runs to its end before the main context goes on
(R52). The Layer A meanings of exec are the normative behaviour; these refine them (R49). -/

namespace Sys2Proof.Machine

/-- The command goes on at micro-step `u`, with no response yet. -/
def goMain (cmd : Instr) (u : Nat) (s : State) : Host.Outcome State Fault Refusal :=
  .next { silent s with micro.main := .busy cmd u }

/-- The command's last micro-step: its response is driven and the main context is idle. -/
def endMain (s : State) : Host.Outcome State Fault Refusal := .next { s with micro.main := .idle }

/-- The handler goes on at micro-step `u`. -/
def goIsr (ch : Channel) (u : Nat) (s : State) : Host.Outcome State Fault Refusal :=
  .next { silent s with micro.ctx := .isr ch u }

/-! ## Critical section: one access each (R48, R120 to R122; log entry 16) -/

def microCritEnter (u : Nat) (s : State) : Host.Outcome State Fault Refusal :=
  match u with
  | 1 => goMain .critEnter 2 (saveIe s)
  | 2 => endMain (respondBool s.micro.saved s)
  | _ => .fault .noMicroStep

def microCritExit (token : Bool) (u : Nat) (s : State) : Host.Outcome State Fault Refusal :=
  match u with
  | 1 => goMain (.critExit token) 2 (critExit token s)
  | 2 => endMain (respondVoid s)
  | _ => .fault .noMicroStep

def microIrqBind (ch : Channel) (u : Nat) (s : State) : Host.Outcome State Fault Refusal :=
  match u with
  | 1 => goMain (.irqBind ch) 2 (bindHandler ch s)
  | 2 => endMain (respondVoid s)
  | _ => .fault .noMicroStep

/-! ## Ring (R91) -/

def microRbPop (u : Nat) (s : State) : Host.Outcome State Fault Refusal :=
  match u with
  | 1 => goMain .rbPop 2 (saveIe s)
  | 2 => goMain .rbPop 3 { s with micro.c := s.count }
  | 3 => goMain .rbPop (if s.micro.c = 0#8 then 8 else 4) s
  | 4 => goMain .rbPop 5 { s with micro.t := s.tail }
  | 5 =>
    match readBuf s s.micro.t.toNat with
    | .ok v => goMain .rbPop 6 { s with micro.v := v }
    | .error f => .fault f
  | 6 => goMain .rbPop 7 { s with tail := nextIndex s.params.n s.micro.t }
  | 7 => goMain .rbPop 8 { s with count := s.micro.c - 1#8 }
  | 8 => goMain .rbPop 9 (restoreIe s)
  | 9 => endMain (if s.micro.c = 0#8 then respondEmpty s else respondElem s.micro.v s)
  | _ => .fault .noMicroStep

def microRbPeek (u : Nat) (s : State) : Host.Outcome State Fault Refusal :=
  match u with
  | 1 => goMain .rbPeek 2 (saveIe s)
  | 2 => goMain .rbPeek 3 { s with micro.c := s.count }
  | 3 => goMain .rbPeek (if s.micro.c = 0#8 then 6 else 4) s
  | 4 => goMain .rbPeek 5 { s with micro.t := s.tail }
  | 5 =>
    match readBuf s s.micro.t.toNat with
    | .ok v => goMain .rbPeek 6 { s with micro.v := v }
    | .error f => .fault f
  | 6 => goMain .rbPeek 7 (restoreIe s)
  | 7 => endMain (if s.micro.c = 0#8 then respondEmpty s else respondElem s.micro.v s)
  | _ => .fault .noMicroStep

/-- `RB.ISEMPTY`, `RB.ISFULL`, `RB.AVAIL`: one read of `COUNT`, no bracket (R48, R91). -/
def microPredicate (cmd : Instr) (answer : Byte → Bool) (u : Nat) (s : State) : Host.Outcome State Fault Refusal :=
  match u with
  | 1 => goMain cmd 2 { s with micro.c := s.count }
  | 2 => endMain (respondBool (answer s.micro.c) s)
  | _ => .fault .noMicroStep

/-- `ISR.RX`. -/
def microIsrRx (u : Nat) (s : State) : Host.Outcome State Fault Refusal :=
  match u with
  | 1 => goIsr .rx 2 { s with micro.isrC := s.count }
  | 2 => goIsr .rx (if s.micro.isrC.toNat = s.params.n then 7 else 3) s
  | 3 => goIsr .rx 4 { s with micro.isrH := s.head }
  | 4 =>
    match writeBuf s s.micro.isrH.toNat s.rxData with
    | .ok s => goIsr .rx 5 s
    | .error f => .fault f
  | 5 => goIsr .rx 6 { s with head := nextIndex s.params.n s.micro.isrH }
  | 6 => goIsr .rx 7 { s with count := s.micro.isrC + 1#8 }
  | 7 => goIsr .rx 8 (clearRx s)
  | 8 => .next (leaveHandler (silent s))
  | _ => .fault .noMicroStep

/-! ## Clock (R112) -/

/-- `CLK.GETMS` and `CLK.GETPERIOD`: the lanes of a 32-bit register, lane 0 first, inside a bracket. -/
def microSnapshot (cmd : Instr) (reg : Word) (u : Nat) (s : State) : Host.Outcome State Fault Refusal :=
  let d := s.params.wDp
  if u = 0 then .fault .noMicroStep
  else if u = 1 then goMain cmd 2 (saveIe s)
  else if u < 2 + d.lanes then
    goMain cmd (u + 1) { s with micro.tmp := setLane32 d s.micro.tmp (u - 2) (lane d reg.toNat (u - 2)) }
  else if u = 2 + d.lanes then goMain cmd (u + 1) (restoreIe s)
  else if u = 3 + d.lanes then endMain (respondWord s.micro.tmp s)
  else .fault .noMicroStep

def microClkStatus (u : Nat) (s : State) : Host.Outcome State Fault Refusal :=
  match u with
  | 1 => goMain .clkStatus 2 (saveIe s)
  | 2 => goMain .clkStatus 3 { s with micro.b0 := s.fault }
  | 3 => goMain .clkStatus 4 { s with micro.b1 := s.srcEn }
  | 4 => goMain .clkStatus 5 (restoreIe s)
  | 5 => endMain (respondWord (statusWord s.micro.b1 s.micro.b0) s)
  | _ => .fault .noMicroStep

def microClkInit (u : Nat) (s : State) : Host.Outcome State Fault Refusal :=
  match u with
  | 1 => goMain .clkInit 2 (setFault s.envTimeInvalid s)
  | 2 => endMain (respondBool s.fault s)
  | _ => .fault .noMicroStep

/-- The period `CLK.SETPERIOD` writes lane by lane: 0 unless the programming goes ahead (R112). -/
def newPeriod (fTick : Nat) (p q : Half) : Word := if q = 0#16 then 0#32 else periodMs fTick p

/-- `CLK.SETPERIOD p`, and `CLK.STOP` with `p = 0`; `env.src_ok` is sampled once, at micro-step 3. The lanes of `SRC_CNT`
are written low lane first: R112 gives them no index. DESIGN CHOICE, log entry 29. -/
def microSetPeriod (cmd : Instr) (p : Half) (u : Nat) (s : State) : Host.Outcome State Fault Refusal :=
  let d := s.params.wDp
  let a := 4 + d.cntLanes
  let b := a + d.lanes
  if u = 0 then .fault .noMicroStep
  else if u = 1 then goMain cmd 2 (saveIe s)
  else if u = 2 then goMain cmd 3 { s with srcEn := false }
  else if u = 3 then goMain cmd 4 { s with micro.q := if p = 0#16 ∨ s.envSrcOk = false then 0#16 else p }
  else if u < a then
    goMain cmd (u + 1) { s with srcCnt := setLane16 d s.srcCnt (u - 4) (lane d s.micro.q.toNat (u - 4)) }
  else if u < b then
    goMain cmd (u + 1)
      { s with tickPeriodMs :=
          setLane32 d s.tickPeriodMs (u - a) (lane d (newPeriod s.params.fTick p s.micro.q).toNat (u - a)) }
  else if u = b then goMain cmd (u + 1) (if s.micro.q = 0#16 then s else { s with srcEn := true })
  else if u = b + 1 then goMain cmd (u + 1) (restoreIe s)
  else if u = b + 2 then endMain (respondBool (decide (p = 0#16) || decide (s.micro.q ≠ 0#16)) s)
  else .fault .noMicroStep

/-- The lane sum `t` of `ISR.TICK`: two lanes and the carry. -/
def laneSum (s : State) (i : Nat) : Nat :=
  lane s.params.wDp s.acc.toNat i + lane s.params.wDp s.tickPeriodMs.toNat i + bitNat s.micro.carry

/-- `ISR.TICK`: the addition goes from lane 0 upward; the final carry is discarded. -/
def microIsrTick (u : Nat) (s : State) : Host.Outcome State Fault Refusal :=
  let d := s.params.wDp
  if u = 0 then .fault .noMicroStep
  else if u = 1 then goIsr .tick 2 { s with micro.carry := false }
  else if u < 2 + d.lanes then
    goIsr .tick (u + 1)
      { s with
        acc := setLane32 d s.acc (u - 2) (laneSum s (u - 2) % 2 ^ d.bits)
        micro.carry := decide (laneSum s (u - 2) / 2 ^ d.bits ≠ 0) }
  else if u = 2 + d.lanes then goIsr .tick (u + 1) (clearTick s)
  else if u = 3 + d.lanes then .next (leaveHandler (silent s))
  else .fault .noMicroStep

/-! ## One micro-step -/

/-- Micro-step `u` of the command in progress. Events and dispatch steps are no commands and have no main sequence. -/
def microMain (cmd : Instr) (u : Nat) (s : State) : Host.Outcome State Fault Refusal :=
  match cmd with
  | .critEnter => microCritEnter u s
  | .critExit token => microCritExit token u s
  | .irqBind ch => microIrqBind ch u s
  | .rbPop => microRbPop u s
  | .rbPeek => microRbPeek u s
  | .rbIsEmpty => microPredicate .rbIsEmpty (fun c => decide (c = 0#8)) u s
  | .rbIsFull => microPredicate .rbIsFull (fun c => decide (c.toNat = s.params.n)) u s
  | .rbAvail => microPredicate .rbAvail (fun c => decide (0 < c.toNat)) u s
  | .clkInit => microClkInit u s
  | .clkSetPeriod p => microSetPeriod (.clkSetPeriod p) p u s
  | .clkStop => microSetPeriod .clkStop 0#16 u s
  | .clkGetMs => microSnapshot .clkGetMs s.acc u s
  | .clkStatus => microClkStatus u s
  | .clkGetPeriod => microSnapshot .clkGetPeriod s.tickPeriodMs u s
  | .evTick => .fault .noMicroStep
  | .evRx _ => .fault .noMicroStep
  | .evEnv _ _ => .fault .noMicroStep
  | .isrTick => .fault .noMicroStep
  | .isrRx => .fault .noMicroStep

/-- The next micro-step of the context that holds the core (R37, R52). -/
def microStep (s : State) : Host.Outcome State Fault Refusal :=
  match s.micro.ctx with
  | .isr .tick u => microIsrTick u s
  | .isr .rx u => microIsrRx u s
  | .main =>
    match s.micro.main with
    | .idle => .fault .noMicroStep
    | .busy cmd u => microMain cmd u s

/-- The host presents a word and its micro-sequence begins at micro-step 1; an illegal word is answered at once, having no
sequence (R67; log entry 18). -/
def startCommand (w : Word) (s : State) : Host.Outcome State Fault Refusal :=
  if hostReady s then
    match decodeHost s.params.wT w with
    | some i => .next { silent s with micro.main := .busy i 1 }
    | none => .next (respondIllegal s)
  else .fault .mainContextBusy

/-- The dispatcher enters a handler in a gap where `IE = 1` (R53, R134, R136). -/
def startHandler (ch : Channel) (s : State) : Host.Outcome State Fault Refusal :=
  if dispatchable ch s then .next (enterHandler ch (silent s)) else .fault (.dispatchNotEnabled ch)

end Sys2Proof.Machine
end

