-- ==== Sys2Proof/Machine/Fetch.lean ====
section
/-! DEFINITION. What one line of a script does (R21, R61, R72): which agent steps, and with what word. -/

namespace Sys2Proof.Machine

/-- A word on the command port, done whole (Layer A): a legal host command runs, any other word is answered `ERR` and
changes no state (R67, R68). -/
def performPort (w : Word) (s : State) : Host.Outcome State Fault Refusal :=
  if hostReady s then
    match decodeHost s.params.wT w with
    | some i => exec i s
    | none => .next (respondIllegal s)
  else .fault .mainContextBusy

/-- A step word of a trace (R61): an event or dispatch word is that step, or the trace is malformed (R68); every other word
is on the command port. -/
def performWord (w : Word) (s : State) : Host.Outcome State Fault Refusal :=
  if isTraceWord w then
    match decode s.params.wT w with
    | .ok i => exec i s
    | .error e => .refused (.malformedTrace e)
  else performPort w s

/-- One line of a script. -/
def performLine (l : Line) (s : State) : Host.Outcome State Fault Refusal :=
  match l with
  | .word w => performWord w s
  | .port w => performPort w s
  | .reset => .next (resetBlock s)
  | .start w => startCommand w s
  | .enter ch => startHandler ch s
  | .micro => microStep s

/-- The script pointer moves to the next line after a step that happened; every line advances it by exactly 1 (R21). -/
def advance (o : Host.Outcome State Fault Refusal) : Host.Outcome State Fault Refusal :=
  match o with
  | .next s => .next { s with sp := s.sp + 1 }
  | .fault f => .fault f
  | .refused r => .refused r

/-- The line at the script pointer (R21, R72). -/
def fetchLine (s : State) : Option Line := s.script[s.sp]?

/-- Places a line at one position of a script; positions before it that the script lacks are filled with the same line. -/
def placeLine : List Line → Nat → Line → List Line
  | [], 0, l => [l]
  | _ :: rest, 0, l => l :: rest
  | [], k + 1, l => l :: placeLine [] k l
  | a :: rest, k + 1, l => a :: placeLine rest k l

end Sys2Proof.Machine
end

