-- ==== Sys2Proof/Machine/Step.lean ====
section
/-! DEFINITION. One step of the machine: the line at the script pointer (R11, R21, R72). -/

namespace Sys2Proof.Machine

/-- Performs the line at the script pointer and advances the pointer; past the last line the run has ended (R72). -/
def step (s : State) : Host.Outcome State Fault Refusal :=
  match fetchLine s with
  | some l => advance (performLine l s)
  | none => .fault .scriptEnded

/-- The state whose next line is the step word `w` of `nbits` bits (log entry 2): a script is loaded from outside. -/
def State.withFetchWord (s : State) (nbits w : Nat) : State :=
  { s with script := placeLine s.script s.sp (.word (BitVec.ofNat 32 (w % 2 ^ nbits))) }

end Sys2Proof.Machine
end

