-- ==== Sys2Proof/Machine/Script.lean ====
section
/-! DEFINITION. The textual form of steps and scripts (R70 to R73): the assembler, the pseudo-instructions, the `.param`
directive, the expected responses, and loading a script over the reset state. Text is a list of characters. Log entry 24. -/

namespace Sys2Proof.Machine

/-! ## Words of a line -/

/-- White space inside a line (R70). -/
def isBlank (c : Char) : Bool := c == ' ' || c == '\t' || c == '\r'

/-- A `;` starts a comment that runs to the end of the line (R70). -/
def stripComment (cs : List Char) : List Char := cs.takeWhile (fun c => c != ';')

/-- The words of a line, `cur` being the word read so far, last character first. -/
def wordsFrom : List Char → List Char → List (List Char)
  | [], cur => if cur.isEmpty then [] else [cur.reverse]
  | c :: cs, cur =>
    if isBlank c then (if cur.isEmpty then wordsFrom cs [] else cur.reverse :: wordsFrom cs [])
    else wordsFrom cs (c :: cur)

/-- The words of a line without its comment. -/
def lineWords (cs : List Char) : List (List Char) := wordsFrom (stripComment cs) []

/-- The lines of a text, `cur` being the line read so far, last character first. -/
def linesFrom : List Char → List Char → List (List Char)
  | [], cur => [cur.reverse]
  | c :: cs, cur => if c == '\n' then cur.reverse :: linesFrom cs [] else linesFrom cs (c :: cur)

/-! ## Numbers: decimal or `0x` hexadecimal, unsigned (R70) -/

/-- The value of a digit below 16. -/
def digitValue (c : Char) : Option Nat :=
  if '0' ≤ c ∧ c ≤ '9' then some (c.toNat - '0'.toNat)
  else if 'a' ≤ c ∧ c ≤ 'f' then some (c.toNat - 'a'.toNat + 10)
  else if 'A' ≤ c ∧ c ≤ 'F' then some (c.toNat - 'A'.toNat + 10)
  else none

/-- The digits of a number in a base, added to `acc`. -/
def digitsFrom (base : Nat) : List Char → Nat → Option Nat
  | [], acc => some acc
  | c :: cs, acc =>
    match digitValue c with
    | some v => if v < base then digitsFrom base cs (acc * base + v) else none
    | none => none

/-- An unsigned number. -/
def parseNumber : List Char → Option Nat
  | [] => none
  | '0' :: 'x' :: c :: cs => digitsFrom 16 (c :: cs) 0
  | cs => digitsFrom 10 cs 0

/-- A number below a bound. -/
def parseBelow (bound : Nat) (cs : List Char) : Option Nat :=
  match parseNumber cs with
  | some n => if n < bound then some n else none
  | none => none

/-- A one-bit operand. -/
def parseBit (cs : List Char) : Option Bool := (parseBelow 2 cs).map (fun n => decide (n = 1))

/-- The number after a prefix such as `N=`. -/
def parseAfter (key : List Char) (cs : List Char) : Option Nat :=
  if key.isPrefixOf cs then parseNumber (cs.drop key.length) else none

/-- `key=0` or `key=1`. -/
def parseLevel (key cs : List Char) : Option Bool :=
  match parseAfter key cs with
  | some 0 => some false
  | some 1 => some true
  | _ => none

/-! ## Steps (R70, R71) -/

/-- The pseudo-instructions of R71 that are words of their own; `CLK.SETPERIOD Off` is an operand keyword. -/
inductive Pseudo where
  | irqEn
  | irqDis
  | rbRead
  | rbTryPop
  | clkSetPeriodOff
  deriving DecidableEq, Repr

/-- Each expands to exactly one step word (R71). -/
def Pseudo.expand : Pseudo → Instr
  | .irqEn => .critExit true
  | .irqDis => .critEnter
  | .rbRead => .rbPop
  | .rbTryPop => .rbPop
  | .clkSetPeriodOff => .clkSetPeriod 0#16

/-- The zero-operand mnemonics of R66 and R71, case-sensitive. -/
def zeroOperandMnemonics : List (String × Instr) :=
  [("CRIT.ENTER", .critEnter), ("RB.POP", .rbPop), ("RB.PEEK", .rbPeek), ("RB.ISEMPTY", .rbIsEmpty),
    ("RB.ISFULL", .rbIsFull), ("RB.AVAIL", .rbAvail), ("CLK.INIT", .clkInit), ("CLK.STOP", .clkStop),
    ("CLK.GETMS", .clkGetMs), ("CLK.STATUS", .clkStatus), ("CLK.GETPERIOD", .clkGetPeriod)] ++
  [("EV.TICK", .evTick), ("ISR.TICK", .isrTick), ("ISR.RX", .isrRx)] ++
  [("IRQ.EN", Pseudo.irqEn.expand), ("IRQ.DIS", Pseudo.irqDis.expand), ("RB.READ", Pseudo.rbRead.expand),
    ("RB.TRYPOP", Pseudo.rbTryPop.expand)]

/-- The operand of `IRQ.BIND`: 0 or 1, or the keyword `tick` or `rx` (R70). -/
def parseChannel (cs : List Char) : Option Channel :=
  if cs = "tick".toList then some .tick
  else if cs = "rx".toList then some .rx
  else (parseBit cs).map Channel.ofBit

/-- The operand of `CLK.SETPERIOD`: 0 to 65535, or the keyword `Off` (R70). -/
def parsePeriod (cs : List Char) : Option Half :=
  if cs = "Off".toList then some 0#16 else (parseBelow (2 ^ 16) cs).map (BitVec.ofNat 16)

/-- One step from its words: a mnemonic and its operands (R70, R71), for elements of `wT` bits. -/
def parseStep (wT : Nat) (ws : List (List Char)) : Option Instr :=
  match ws with
  | [m] => (zeroOperandMnemonics.find? (fun row => row.1.toList == m)).map Prod.snd
  | [m, a] =>
    if m = "CRIT.EXIT".toList then (parseBit a).map .critExit
    else if m = "IRQ.BIND".toList then (parseChannel a).map .irqBind
    else if m = "CLK.SETPERIOD".toList then (parsePeriod a).map .clkSetPeriod
    else if m = "EV.RX".toList then (parseBelow (2 ^ wT) a).map (fun n => .evRx (BitVec.ofNat 16 n))
    else none
  | [m, a, b] =>
    if m = "EV.ENV".toList then
      match parseLevel "ok=".toList a, parseLevel "ti=".toList b with
      | some ok, some ti => some (.evEnv ok ti)
      | _, _ => none
    else none
  | _ => none

/-- The expected response after `=>`: a status name of R63 and the data in hexadecimal (R73). -/
def parseExpected (ws : List (List Char)) : Option Response :=
  match ws with
  | [st, d] =>
    match parseBelow (2 ^ 32) d with
    | some n =>
      if st = "OK".toList then some ⟨.ok, BitVec.ofNat 32 n⟩
      else if st = "EMPTY".toList then some ⟨.empty, BitVec.ofNat 32 n⟩
      else if st = "ERR".toList then some ⟨.err, BitVec.ofNat 32 n⟩
      else none
    | none => none
  | _ => none

/-- A line of a script: the step, and what the text expects the block to answer, if it says. -/
structure ScriptLine where
  instr : Instr
  expected : Option Response
  deriving DecidableEq, Repr

/-- One line that is not blank (R70, R73). -/
def parseLine (wT : Nat) (ws : List (List Char)) : Option ScriptLine :=
  let stepWords := ws.takeWhile (fun w => w != "=>".toList)
  match parseStep wT stepWords, ws.drop stepWords.length with
  | some i, [] => some ⟨i, none⟩
  | some i, _ :: after => if i.cls = .hostCommand then (parseExpected after).map (fun r => ⟨i, some r⟩) else none
  | none, _ => none

/-- The directive line `.param N=<n> W_T=<w> F_TICK=<f> W_DP=<b>`, with legal values (R5, R72). -/
def parseParams (ws : List (List Char)) : Option Params :=
  match ws with
  | [dir, a, b, c, d] =>
    if dir = ".param".toList then
      match parseAfter "N=".toList a, parseAfter "W_T=".toList b, parseAfter "F_TICK=".toList c, parseAfter "W_DP=".toList d with
      | some n, some w, some f, some dp =>
        let mk (path : DataPath) : Option Params :=
          let p : Params := ⟨n, w, f, path⟩
          if p.legal then some p else none
        if dp = 8 then mk .w8 else if dp = 16 then mk .w16 else if dp = 32 then mk .w32 else none
      | _, _, _, _ => none
    else none
  | _ => none

/-- Every line parses, or the text is no script. -/
def parseLines (wT : Nat) : List (List (List Char)) → Option (List ScriptLine)
  | [] => some []
  | ws :: rest =>
    match parseLine wT ws, parseLines wT rest with
    | some l, some ls => some (l :: ls)
    | _, _ => none

/-- A script (R72): the directive line, then one step per line; blank lines are ignored (R70). -/
def parseScript (text : List Char) : Option (Params × List ScriptLine) :=
  match (linesFrom text []).map lineWords |>.filter (fun ws => !ws.isEmpty) with
  | [] => none
  | dir :: rest =>
    match parseParams dir with
    | some p => (parseLines p.wT rest).map (fun ls => (p, ls))
    | none => none

/-! ## Running a script (R72) -/

/-- A script starts from the reset state, with `env.time_invalid = 0` and `env.src_ok = 1`. -/
def State.load (p : Params) (ls : List Line) : State := { State.resetWith p with script := ls }

/-- The lines a parsed script stands for. -/
def scriptWords (ls : List ScriptLine) : List Line := ls.map (fun l => .word (encode l.instr))

/-- Performs lines one after another and stops at the first that cannot happen. -/
def runLines : List Line → State → Host.Outcome State Fault Refusal
  | [], s => .next s
  | l :: ls, s =>
    match performLine l s with
    | .next s' => runLines ls s'
    | .fault f => .fault f
    | .refused r => .refused r

/-- A list of lines is consistent from a state if every line can happen where it stands (R69, R72). -/
def consistent (ls : List Line) (s : State) : Bool :=
  match runLines ls s with
  | .next _ => true
  | .fault _ => false
  | .refused _ => false

/-- Every expectation a script states is what the block answers (R73). -/
def meetsExpectations : List ScriptLine → State → Bool
  | [], _ => true
  | l :: ls, s =>
    match performLine (.word (encode l.instr)) s with
    | .next s' =>
      (match l.expected with
        | some r => decide (s'.resp = some r)
        | none => true) && meetsExpectations ls s'
    | .fault _ => false
    | .refused _ => false

end Sys2Proof.Machine
end

