-- ==== Sys2Proof/Safety.lean ====
section
/-! DEFINITION. The terms claims are stated in: the invariants of R81 and of the clock registers, what holds while a Layer B
operation is in progress, the queue the ring stands for (R88), runs and what they produce (R11, R109), nested critical
sections (R123), fair runs (R149). -/

namespace Sys2Proof.Machine

/-! ## Invariants of a state at rest -/

/-- The three invariants of R81 on values of the ring registers: (I1) `COUNT ≤ N`, (I2) `HEAD, TAIL < N`,
(I3) `HEAD = (TAIL + COUNT) mod N`. -/
abbrev ringAt (n head tail count : Nat) : Prop :=
  count ≤ n ∧ head < n ∧ tail < n ∧ head = (tail + count) % n

/-- R81 of a state. -/
abbrev State.ringInv (s : State) : Prop :=
  ringAt s.params.n s.head.toNat s.tail.toNat s.count.toNat

/-- The clock registers at rest: enabled with a countdown and its period (R101, R103), or in the Off state (R104). -/
abbrev State.clockInv (s : State) : Prop :=
  (s.srcEn = true ∧ s.srcCnt ≠ 0#16 ∧ s.tickPeriodMs = periodMs s.params.fTick s.srcCnt) ∨
  (s.srcEn = false ∧ s.srcCnt = 0#16 ∧ s.tickPeriodMs = 0#32)

/-- The storage holds elements of the ring, of `W_T` bits, in canonical form (R5, R27, R40), and `RX_DATA` has `W_T` bits. -/
abbrev State.dataInv (s : State) : Prop :=
  s.buf.wf = true ∧ (∀ e ∈ s.buf, e.1 < s.params.n ∧ e.2.toNat < 2 ^ s.params.wT) ∧ s.rxData.toNat < 2 ^ s.params.wT

/-! ## Layer B: what holds while an operation is in progress -/

/-- The last micro-step of each command (R91, R112; log entry 16); 0 for what is no command. -/
def lastMicro (d : DataPath) : Instr → Nat
  | .critEnter => 2
  | .critExit _ => 2
  | .irqBind _ => 2
  | .rbPop => 9
  | .rbPeek => 7
  | .rbIsEmpty => 2
  | .rbIsFull => 2
  | .rbAvail => 2
  | .clkInit => 2
  | .clkSetPeriod _ => 6 + d.cntLanes + d.lanes
  | .clkStop => 6 + d.cntLanes + d.lanes
  | .clkGetMs => 3 + d.lanes
  | .clkStatus => 5
  | .clkGetPeriod => 3 + d.lanes
  | .evTick => 0
  | .evRx _ => 0
  | .evEnv _ _ => 0
  | .isrTick => 0
  | .isrRx => 0

/-- The commands that bracket themselves (R48). -/
def bracketed : Instr → Bool
  | .critEnter => false
  | .critExit _ => false
  | .irqBind _ => false
  | .rbPop => true
  | .rbPeek => true
  | .rbIsEmpty => false
  | .rbIsFull => false
  | .rbAvail => false
  | .clkInit => false
  | .clkSetPeriod _ => true
  | .clkStop => true
  | .clkGetMs => true
  | .clkStatus => true
  | .clkGetPeriod => true
  | .evTick => false
  | .evRx _ => false
  | .evEnv _ _ => false
  | .isrTick => false
  | .isrRx => false

/-- Between the micro-step that clears `IE` and the one that restores it: the latter is the last but one (R91, R112). -/
def inBracket (d : DataPath) (cmd : Instr) (u : Nat) : Bool :=
  bracketed cmd && decide (2 ≤ u) && decide (u < lastMicro d cmd)

/-- The last micro-step of each handler (R91, R112). -/
def lastIsrMicro (d : DataPath) : Channel → Nat
  | .tick => 3 + d.lanes
  | .rx => 8

/-- The micro-step of each handler that clears its pending flag (R91, R112). -/
def clearIsrMicro (d : DataPath) : Channel → Nat
  | .tick => 2 + d.lanes
  | .rx => 7

/-- The interrupt gate during operations: micro-step numbers are those of R91 and R112, a bracket holds `IE = 0`, and a
handler runs only with `IE = 1`, so never inside a bracket (R48, R53). -/
def State.gateInv (s : State) : Prop :=
  (match s.micro.main with
    | .idle => True
    | .busy cmd u =>
      1 ≤ u ∧ u ≤ lastMicro s.params.wDp cmd ∧ (inBracket s.params.wDp cmd u = true → s.ie = false)) ∧
  (match s.micro.ctx with
    | .main => True
    | .isr ch u => 1 ≤ u ∧ u ≤ lastIsrMicro s.params.wDp ch ∧ s.ie = true)

/-- The ring registers seen through the receive handler at micro-step `u` (R91): what it has read is still so, and after
line 5 `HEAD` is one ahead of `COUNT`. -/
def ringInRxHandler (s : State) (u : Nat) : Prop :=
  (2 ≤ u ∧ u ≤ 6 → s.micro.isrC = s.count) ∧
  (3 ≤ u ∧ u ≤ 6 → s.count.toNat ≠ s.params.n) ∧
  (4 ≤ u ∧ u ≤ 5 → s.micro.isrH = s.head) ∧
  (if u = 6 then
    s.count.toNat < s.params.n ∧ s.head.toNat < s.params.n ∧ s.tail.toNat < s.params.n ∧
      s.head.toNat = (s.tail.toNat + s.count.toNat + 1) % s.params.n
  else s.ringInv)

/-- The ring registers seen through `RB.POP` at micro-step `u` (R91): after line 6 `TAIL` is one ahead of `COUNT`. -/
def ringInPop (s : State) (u : Nat) : Prop :=
  (3 ≤ u ∧ u ≤ 7 → s.micro.c = s.count) ∧
  (4 ≤ u ∧ u ≤ 7 → s.count ≠ 0#8) ∧
  (5 ≤ u ∧ u ≤ 6 → s.micro.t = s.tail) ∧
  (if u = 7 then
    s.count.toNat ≤ s.params.n ∧ s.head.toNat < s.params.n ∧ s.tail.toNat < s.params.n ∧
      s.head.toNat = (s.tail.toNat + (s.count.toNat - 1)) % s.params.n
  else s.ringInv)

/-- The ring registers seen through `RB.PEEK` at micro-step `u` (R91). -/
def ringInPeek (s : State) (u : Nat) : Prop :=
  (3 ≤ u ∧ u ≤ 5 → s.micro.c = s.count) ∧ (4 ≤ u ∧ u ≤ 5 → s.count ≠ 0#8) ∧ (u = 5 → s.micro.t = s.tail) ∧ s.ringInv

/-- The ring at both layers: R81 at rest and in every operation but the two that move an index and `COUNT` in two
micro-steps. -/
def State.ringCoherent (s : State) : Prop :=
  match s.micro.ctx with
  | .isr .rx u => ringInRxHandler s u
  | .isr .tick _ => s.ringInv
  | .main =>
    match s.micro.main with
    | .idle => s.ringInv
    | .busy cmd u =>
      if cmd = .rbPop then ringInPop s u else if cmd = .rbPeek then ringInPeek s u else s.ringInv

/-- The clock registers while `CLK.SETPERIOD p` (or `CLK.STOP`, `p = 0`) is at micro-step `u` (R112): what earlier
micro-steps wrote. -/
def clockInSetPeriod (s : State) (p : Half) (u : Nat) : Prop :=
  let d := s.params.wDp
  let a := 4 + d.cntLanes
  let b := a + d.lanes
  (u ≤ 2 → s.clockInv) ∧
  (3 ≤ u ∧ u ≤ b → s.srcEn = false) ∧
  (4 ≤ u → s.micro.q = 0#16 ∨ s.micro.q = p) ∧
  (∀ i, i < d.cntLanes → 4 + i < u → lane d s.srcCnt.toNat i = lane d s.micro.q.toNat i) ∧
  (∀ i, i < d.lanes → a + i < u →
    lane d s.tickPeriodMs.toNat i = lane d (newPeriod s.params.fTick p s.micro.q).toNat i) ∧
  (b < u → s.clockInv)

/-- The clock registers at both layers. -/
def State.clockCoherent (s : State) : Prop :=
  match s.micro.main with
  | .idle => s.clockInv
  | .busy cmd u =>
    match cmd with
    | .clkSetPeriod p => clockInSetPeriod s p u
    | .clkStop => clockInSetPeriod s 0#16 u
    | .critEnter | .critExit _ | .irqBind _ | .rbPop | .rbPeek | .rbIsEmpty | .rbIsFull | .rbAvail | .clkInit
    | .clkGetMs | .clkStatus | .clkGetPeriod | .evTick | .evRx _ | .evEnv _ _ | .isrTick | .isrRx => s.clockInv

/-- Everything but the Layer B state and the response port: what the two layers are compared by (R49). -/
def State.layerA (s : State) : State := { s with micro := .idle, resp := none }

/-! ## The queue (R88) -/

/-- The occupied elements, oldest first (R27): the FIFO the ring stands for. -/
def State.queue (s : State) : List Elem :=
  (List.range s.count.toNat).map (fun k => elemAt s ((s.tail.toNat + k) % s.params.n))

/-! ## Layer A runs and what they produce (R11) -/

/-- A Layer A line: a step word or a word on the command port (R11). -/
def Line.layerA : Line → Bool
  | .word _ => true
  | .port _ => true
  | .reset => false
  | .start _ => false
  | .enter _ => false
  | .micro => false

/-- The responses a list of lines produces, in order (R63). -/
def responses : List Line → State → List Response
  | [], _ => []
  | l :: ls, s =>
    match performLine l s with
    | .next s' => s'.resp.toList ++ responses ls s'
    | .fault _ => []
    | .refused _ => []

/-- The values `TICK_PERIOD_MS` had at each run of the tick handler (R109). -/
def tickPeriods : List Line → State → List Nat
  | [], _ => []
  | l :: ls, s =>
    match performLine l s with
    | .next s' => (if l = .word 0x90000000#32 then [s.tickPeriodMs.toNat] else []) ++ tickPeriods ls s'
    | .fault _ => []
    | .refused _ => []

/-- The elements successful pushes stored (R88): a receive handler that finds room stores `RX_DATA`. -/
def pushedElems : List Line → State → List Word
  | [], _ => []
  | l :: ls, s =>
    match performLine l s with
    | .next s' =>
      (if l = .word 0x91000000#32 ∧ s.count.toNat ≠ s.params.n then [(fitElem s.params.wT s.rxData).setWidth 32] else []) ++
        pushedElems ls s'
    | .fault _ => []
    | .refused _ => []

/-- What successful pops answered (R88). -/
def poppedData : List Line → State → List Word
  | [], _ => []
  | l :: ls, s =>
    match performLine l s with
    | .next s' =>
      (if l = .word 0x10000000#32 ∨ l = .port 0x10000000#32 then
        match s'.resp with
        | some ⟨.ok, d⟩ => [d]
        | some ⟨.empty, _⟩ => []
        | some ⟨.err, _⟩ => []
        | none => []
      else []) ++ poppedData ls s'
    | .fault _ => []
    | .refused _ => []

/-! ## Nested critical sections (R123) -/

/-- `Balanced s visited t`: from `s`, Layer A steps among which every `CRIT.ENTER` is matched, last in first out, by a
`CRIT.EXIT` carrying the token its response gave, lead to `t` through the states `visited`. -/
inductive Balanced : State → List State → State → Prop where
  | refl (s : State) : Balanced s [] s
  | other {s t u : State} {xs : List State} (i : Instr) (before : Balanced s xs t)
      (notEnter : i ≠ .critEnter) (notExit : ∀ token, i ≠ .critExit token) (step : exec i t = .next u) :
      Balanced s (xs ++ [u]) u
  | section_ {s t u v w : State} {xs ys : List State} {token : Word} (before : Balanced s xs t)
      (enter : exec .critEnter t = .next u) (answer : u.resp = some ⟨.ok, token⟩) (inside : Balanced u ys v)
      (leave : exec (.critExit (token.getLsbD 0)) v = .next w) : Balanced s (xs ++ [u] ++ ys ++ [w]) w

/-! ## Infinite runs and fairness (R149) -/

/-- An infinite run: the `k`-th line takes the `k`-th state to the next (R11). -/
def InfiniteRun (lines : Nat → Line) (states : Nat → State) : Prop :=
  ∀ k, performLine (lines k) (states k) = .next (states (k + 1))

/-- The step word of a channel's dispatch (R66, R135). -/
def dispatchWord : Channel → Word
  | .tick => 0x90000000#32
  | .rx => 0x91000000#32

/-- Weak fairness of the dispatcher: a dispatch that stays enabled from some point on is taken (R149). -/
def WeaklyFair (ch : Channel) (lines : Nat → Line) (states : Nat → State) : Prop :=
  ∀ k, (∀ m, k ≤ m → dispatchable ch (states m) = true) → ∃ m, k ≤ m ∧ lines m = .word (dispatchWord ch)

/-! ## Illegal host commands (R67) -/

/-- The 14 host-command codes of R66. -/
def hostCodes : List Nat :=
  [0x01, 0x02, 0x03, 0x10, 0x11, 0x12, 0x13, 0x14, 0x20, 0x21, 0x22, 0x23, 0x24, 0x25]

/-- What makes a word an illegal host command, in the words of R67. -/
abbrev illegalCommand (w : Word) : Prop :=
  fieldZ w ≠ 0#8 ∨
  (fieldOp w).toNat ∉ hostCodes ∨
  ((fieldOp w).toNat ∉ [0x02, 0x03, 0x21] ∧ fieldImm w ≠ 0#16) ∨
  ((fieldOp w).toNat ∈ [0x02, 0x03] ∧ 2 ≤ (fieldImm w).toNat)

/-! ## What a list of lines drives (R49) -/

/-- The words of Layer B and Layer A lines that the host drives. -/
def hostWords : List Line → List Word
  | [] => []
  | .port w :: ls => w :: hostWords ls
  | .start w :: ls => w :: hostWords ls
  | .word _ :: ls => hostWords ls
  | .reset :: ls => hostWords ls
  | .enter _ :: ls => hostWords ls
  | .micro :: ls => hostWords ls

/-- The source events and whole dispatches of a list of lines. -/
def traceWords : List Line → List Word
  | [] => []
  | .word w :: ls => w :: traceWords ls
  | .port _ :: ls => traceWords ls
  | .start _ :: ls => traceWords ls
  | .reset :: ls => traceWords ls
  | .enter _ :: ls => traceWords ls
  | .micro :: ls => traceWords ls

/-- The source events of a list of lines. -/
def eventWords (ls : List Line) : List Word := (traceWords ls).filter (fun w => (fieldOp w).toNat / 16 = 8)

/-- How many times a list of lines dispatches the handler of a channel, whole or by entering it. -/
def dispatches (ch : Channel) (ls : List Line) : Nat :=
  ls.countP (fun l => decide (l = .word (dispatchWord ch)) || decide (l = .enter ch))

/-- No datum arrives while the receive handler runs with its datum stored and its flag not cleared (log entry 23). -/
def receiveQuiet : List Line → State → Bool
  | [], _ => true
  | l :: ls, s =>
    (match l with
      | .word w => !(decide (fieldOp w = 0x81#8) && rxStored s)
      | .port _ => true
      | .reset => true
      | .start _ => true
      | .enter _ => true
      | .micro => true) &&
    (match performLine l s with
      | .next t => receiveQuiet ls t
      | .fault _ => true
      | .refused _ => true)

/-! ## What the spec admits, whatever the free values are (R133, V3) -/

/-- The steps the spec admits: those of the machine, and of an overrun both outcomes. -/
inductive Admits (s : State) : Line → State → Prop where
  | machine {l : Line} {t : State} (performs : performLine l s = .next t) : Admits s l t
  | overrun {w : Word} {d : Elem} (keepOld : Bool) (decodes : decode s.params.wT w = .ok (.evRx d))
      (waiting : s.rxPend = true) (notStored : rxStored s = false) :
      Admits s (.word w) (Machine.overrun keepOld d (silent s))

/-- A run the spec admits: its lines, the responses they drive, and the state it ends in. -/
inductive AdmittedRun : List Line → State → List Response → State → Prop where
  | nil (s : State) : AdmittedRun [] s [] s
  | cons {l : Line} {ls : List Line} {s t u : State} {rs : List Response} (step : Admits s l t)
      (rest : AdmittedRun ls t rs u) : AdmittedRun (l :: ls) s (t.resp.toList ++ rs) u

/-- Layer A lines among which the handler of a channel is not dispatched. -/
abbrev undispatched (ch : Channel) (ls : List Line) : Prop :=
  ∀ l ∈ ls, l.layerA = true ∧ l ≠ .word (dispatchWord ch)

end Sys2Proof.Machine
end

