-- ==== Sys2Proof/Certificates/Slice0/Obligations.lean ====
section
/-! DEFINITION. The statements for the provers, each named after what it says. A clause `t = { s with f := t.f }` is a frame:
`t` and `s` agree on every field but those named. -/

open Sys2Proof Sys2Proof.Machine

/-! ## Encoding -/

/-- D-ENC-1 of 95_test_vectors.md: words of every family decode to what they stand for (R62, R66). -/
def Obligations.SpecWordsDecode : Prop :=
  decode 8 0x01000000#32 = .ok .critEnter ∧
  decode 8 0x02000001#32 = .ok (.critExit true) ∧
  decode 8 0x03000001#32 = .ok (.irqBind .rx) ∧
  decode 8 0x10000000#32 = .ok .rbPop ∧
  decode 8 0x21000040#32 = .ok (.clkSetPeriod 64#16) ∧
  decode 8 0x23000000#32 = .ok .clkGetMs ∧
  decode 8 0x80000000#32 = .ok .evTick ∧
  decode 8 0x81000041#32 = .ok (.evRx 0x41#16) ∧
  decode 8 0x82000001#32 = .ok (.evEnv false true) ∧
  decode 8 0x91000000#32 = .ok .isrRx

/-- Decoding an encoded instruction gives it back, for every operand the encoding admits (R60, R62, R65, R66). -/
def Obligations.DecodeOfEncode : Prop :=
  ∀ (wT : Nat) (i : Instr), 1 ≤ wT → wT ≤ 16 → i.wellFormed wT = true → decode wT (encode i) = .ok i

/-- A word has at most one meaning: what decodes is well-formed and encodes to that word, so no bit is dropped (R60 to
R62). -/
def Obligations.EncodeOfDecode : Prop :=
  ∀ (wT : Nat) (w : Word) (i : Instr), 1 ≤ wT → wT ≤ 16 → decode wT w = .ok i →
    encode i = w ∧ i.wellFormed wT = true

/-- A word selects a row of R66 iff `(w AND mask) = match` (R62): the decoder accepts exactly the words that select a row,
and gives that row's operation; and no word selects two rows. -/
def Obligations.DecoderFollowsMaskAndMatch : Prop :=
  ∀ (wT : Nat) (w : Word), 1 ≤ wT → wT ≤ 16 →
    (∀ i, decode wT w = .ok i → ∃ r ∈ opcodeRows, r.selects wT w = true ∧ r.mnemonic = i.mnemonic) ∧
    (∀ r ∈ opcodeRows, r.selects wT w = true → ∃ i, decode wT w = .ok i ∧ i.mnemonic = r.mnemonic) ∧
    (∀ r₁ ∈ opcodeRows, ∀ r₂ ∈ opcodeRows, r₁.selects wT w = true → r₂.selects wT w = true → r₁ = r₂)

/-- R67: an illegal word on the command port is answered `ERR 0` and changes no state, `IE` included; every other word is
a legal command and is run. -/
def Obligations.IllegalCommandAnsweredErr : Prop :=
  ∀ (w : Word) (s : State), hostReady s = true →
    (illegalCommand w → performLine (.port w) s = .next { s with resp := some ⟨.err, 0#32⟩ }) ∧
    (¬ illegalCommand w → ∃ i, decode s.params.wT w = .ok i ∧ i.cls = .hostCommand ∧ performLine (.port w) s = exec i s)

/-- R68: an event or dispatch code on the command port is answered `ERR`; in a trace such a word either names its step or
makes the trace malformed. (A wrong `z` or `imm` in a trace: log entry 11.) -/
def Obligations.EventCodesAreNoCommands : Prop :=
  ∀ (w : Word) (s : State), hostReady s = true → isTraceWord w = true →
    performLine (.port w) s = .next { s with resp := some ⟨.err, 0#32⟩ } ∧
    (∀ i, decode s.params.wT w = .ok i → i.cls ≠ .hostCommand ∧ performLine (.word w) s = exec i s) ∧
    (∀ e, decode s.params.wT w = .error e → performLine (.word w) s = .refused (.malformedTrace e))

/-- A step runs the decoded instruction and moves the script pointer to the next line (R21, R72). -/
def Obligations.StepRunsDecodedInstruction : Prop :=
  ∀ (s : State) (w : Word) (i : Instr), s.script[s.sp]? = some (.word w) → decode s.params.wT w = .ok i →
    (i.cls = .hostCommand → hostReady s = true) →
    step s = (match exec i s with
      | .next t => .next { t with sp := s.sp + 1 }
      | .fault f => .fault f
      | .refused r => .refused r)

/-- R71: each pseudo-instruction and alias is one step word, the one of the table. -/
def Obligations.PseudoInstructionsExpand : Prop :=
  ∀ wT : Nat,
    (parseStep wT ["IRQ.EN".toList]).map encode = some 0x02000001#32 ∧
    (parseStep wT ["IRQ.DIS".toList]).map encode = some 0x01000000#32 ∧
    (parseStep wT ["RB.READ".toList]).map encode = some 0x10000000#32 ∧
    (parseStep wT ["RB.TRYPOP".toList]).map encode = some 0x10000000#32 ∧
    (parseStep wT ["CLK.SETPERIOD".toList, "Off".toList]).map encode = some 0x21000000#32

/-! ## Reset -/

/-- R161: the value every element has after reset, for every choice of the parameters. -/
def Obligations.ResetValues : Prop :=
  ∀ p : Params,
    let s := State.resetWith p
    s.acc = 0#32 ∧ s.tickPeriodMs = 0#32 ∧ s.srcCnt = 0#16 ∧ s.srcEn = false ∧ s.fault = false ∧
    s.head = 0#8 ∧ s.tail = 0#8 ∧ s.count = 0#8 ∧ s.ie = false ∧ s.tickPend = false ∧ s.rxPend = false ∧
    s.boundTick = false ∧ s.boundRx = false ∧ s.micro.ctx = .main ∧ s.micro.main = .idle

/-- The reset state meets every invariant below, at every legal choice of parameters, and so does State.reset. `RX_DATA = 0` is the
model's choice, log entry 6. -/
def Obligations.ResetMeetsInvariants : Prop :=
  Config.params.legal = true ∧
  ∀ p : Params, p.legal = true →
    (State.resetWith p).dataInv ∧ (State.resetWith p).gateInv ∧ (State.resetWith p).ringCoherent ∧
    (State.resetWith p).clockCoherent ∧ (State.resetWith p).queue = []

/-- A reset of a running block: the values of R161 again, `IE` cleared and nothing bound, while the input levels, which
are no state of the block (R35, R36), stay. What is kept
and the model's own fields: log entries 2, 6, 8, 9, 17 and 22. -/
def Obligations.PlatformResetRestoresResetState : Prop :=
  ∀ s : State, ∃ t, performLine .reset s = .next t ∧
    t = { State.resetWith s.params with
      envTimeInvalid := s.envTimeInvalid, envSrcOk := s.envSrcOk, script := s.script, sp := s.sp, draws := s.draws }

/-! ## Critical section and setup -/

/-- R120: `CRIT.ENTER` answers the value `IE` had, as a bool, and clears `IE`; nothing else changes. At Layer B the read and
the clearing are one micro-step. (That this is its first micro-step: log entry 16.) -/
def Obligations.CritEnterReturnsAndClearsIe : Prop :=
  encode .critEnter = 0x01000000#32 ∧
  (∀ s : State,
    exec .critEnter s = .next { s with ie := false, resp := some ⟨.ok, if s.ie then 1#32 else 0#32⟩ }) ∧
  ∀ s t : State, s.micro.ctx = .main → s.micro.main = .busy .critEnter 1 → performLine .micro s = .next t →
    t.micro.saved = s.ie ∧ t.ie = false

/-- R121: `CRIT.EXIT s` writes its operand to `IE` and answers `OK 0`; nothing else changes. -/
def Obligations.CritExitWritesIe : Prop :=
  (∀ token, encode (.critExit token) = 0x02000000#32 + (if token then 1#32 else 0#32)) ∧
  ∀ (token : Bool) (s : State), exec (.critExit token) s = .next { s with ie := token, resp := some ⟨.ok, 0#32⟩ }

/-- R122: `IRQ.BIND ch` sets `BOUND[ch]` and answers `OK 0`; the other channel, `IE` and the pending flags stay. -/
def Obligations.IrqBindSetsBound : Prop :=
  (∀ ch, encode (.irqBind ch) = 0x03000000#32 + (match ch with | .tick => 0#32 | .rx => 1#32)) ∧
  ∀ (ch : Channel) (s : State), ∃ t, exec (.irqBind ch) s = .next t ∧ t.resp = some ⟨.ok, 0#32⟩ ∧
    (∀ c, bound t c = if c = ch then true else bound s c) ∧
    t = { s with boundTick := t.boundTick, boundRx := t.boundRx, resp := t.resp }

/-- R123: through a critical section whose inner sections are matched, `IE = 0` at every state, so no handler can be
dispatched, and after the matching exit `IE` is what it was on entry. The spec
marks the rule as derived from R120 and R121. -/
def Obligations.NestedSectionsRestoreIe : Prop :=
  ∀ (s u v w : State) (xs : List State) (token : Word),
    exec .critEnter s = .next u → u.resp = some ⟨.ok, token⟩ → Balanced u xs v →
    exec (.critExit (token.getLsbD 0)) v = .next w →
    (∀ x ∈ u :: xs, x.ie = false ∧ dispatchable .tick x = false ∧ dispatchable .rx x = false) ∧ w.ie = s.ie

/-- R124: no operation but `CRIT.ENTER` and `CRIT.EXIT` leaves `IE` different from the value it found, on any path. The
spec marks the rule as derived from R83, R84 and R103 to R107. -/
def Obligations.OnlyCriticalSectionWritesIe : Prop :=
  ∀ (i : Instr) (s t : State), exec i s = .next t → i ≠ .critEnter → (∀ token, i ≠ .critExit token) → t.ie = s.ie

/-! ## Ring buffer -/

/-- R83: on an empty buffer `RB.POP` answers `EMPTY 0` and changes nothing; otherwise it answers the oldest element
zero-extended, advances `TAIL` modulo `N`, takes one from `COUNT`, and changes nothing else: no element of `BUF`, not
`IE`. -/
def Obligations.PopAnswersOldestElement : Prop :=
  encode .rbPop = 0x10000000#32 ∧
  ∀ s : State, s.params.legal = true → s.tail.toNat < s.params.n →
    (s.count = 0#8 → exec .rbPop s = .next { s with resp := some ⟨.empty, 0#32⟩ }) ∧
    (s.count ≠ 0#8 → ∃ t, exec .rbPop s = .next t ∧
      t.resp = some ⟨.ok, (elemAt s s.tail.toNat).setWidth 32⟩ ∧
      t.tail.toNat = (if s.tail.toNat + 1 = s.params.n then 0 else s.tail.toNat + 1) ∧
      t.count.toNat + 1 = s.count.toNat ∧
      (∀ a, elemAt t a = elemAt s a) ∧
      t = { s with tail := t.tail, count := t.count, resp := t.resp })

/-- R84: `RB.PEEK` answers `EMPTY 0` on an empty buffer and otherwise the oldest element, the one `RB.POP` would answer; it
changes no state at all. -/
def Obligations.PeekAnswersOldestElement : Prop :=
  encode .rbPeek = 0x11000000#32 ∧
  ∀ s : State, s.tail.toNat < s.params.n →
    (s.count = 0#8 → exec .rbPeek s = .next { s with resp := some ⟨.empty, 0#32⟩ }) ∧
    (s.count ≠ 0#8 → exec .rbPeek s = .next { s with resp := some ⟨.ok, (elemAt s s.tail.toNat).setWidth 32⟩ }) ∧
    (∀ t, exec .rbPop s = .next t → exec .rbPeek s = .next { s with resp := t.resp })

/-- `BUF[i]` needs `i < N` (R57): where an index register holds no index the three operations that use it stop by name
(log entry 14). No run reaches such a state (R80). -/
def Obligations.OutOfRangeIndexStops : Prop :=
  ∀ s : State,
    (s.params.n ≤ s.tail.toNat → s.count ≠ 0#8 →
      exec .rbPop s = .fault (.noSuchElement s.tail.toNat) ∧ exec .rbPeek s = .fault (.noSuchElement s.tail.toNat)) ∧
    (s.params.n ≤ s.head.toNat → s.count.toNat ≠ s.params.n → dispatchable .rx s = true →
      exec .isrRx s = .fault (.noSuchElement s.head.toNat))

/-- R85, R86, R87: the three predicates on `COUNT`; `RB.AVAIL` is the negation of `RB.ISEMPTY`; no state changes. -/
def Obligations.RingPredicatesReadCount : Prop :=
  encode .rbIsEmpty = 0x12000000#32 ∧ encode .rbIsFull = 0x13000000#32 ∧ encode .rbAvail = 0x14000000#32 ∧
  ∀ s : State,
    exec .rbIsEmpty s = .next { s with resp := some ⟨.ok, if s.count.toNat = 0 then 1#32 else 0#32⟩ } ∧
    exec .rbIsFull s = .next { s with resp := some ⟨.ok, if s.count.toNat = s.params.n then 1#32 else 0#32⟩ } ∧
    exec .rbAvail s = .next { s with resp := some ⟨.ok, if s.count.toNat = 0 then 0#32 else 1#32⟩ }

/-- R93 with R82 and R89: an enabled `ISR.RX` on a full buffer drops the datum, evicts nothing and clears `RX_PEND`;
otherwise it stores `RX_DATA` at `HEAD`, advances `HEAD` modulo `N`, adds one to `COUNT` and clears `RX_PEND`. Every other
element, `IE` and every other register stay, and there is no response. Not enabled, it cannot happen. -/
def Obligations.RxHandlerPushesOrDropsNewest : Prop :=
  encode .isrRx = 0x91000000#32 ∧
  ∀ s : State, s.params.legal = true → s.head.toNat < s.params.n → s.count.toNat ≤ s.params.n →
    s.rxData.toNat < 2 ^ s.params.wT →
    (s.ie = true → s.boundRx = true → s.rxPend = true → s.micro.ctx = .main →
      if s.count.toNat = s.params.n then exec .isrRx s = .next { s with rxPend := false, resp := none }
      else ∃ t, exec .isrRx s = .next t ∧
        elemAt t s.head.toNat = s.rxData ∧
        (∀ a, a ≠ s.head.toNat → elemAt t a = elemAt s a) ∧
        t.head.toNat = (if s.head.toNat + 1 = s.params.n then 0 else s.head.toNat + 1) ∧
        t.count.toNat = s.count.toNat + 1 ∧ t.rxPend = false ∧ t.resp = none ∧
        t = { s with buf := t.buf, head := t.head, count := t.count, rxPend := t.rxPend, resp := t.resp }) ∧
    (s.ie = false ∨ s.boundRx = false ∨ s.rxPend = false → exec .isrRx s = .fault (.dispatchNotEnabled .rx))

/-- R81 at Layer A: every operation keeps `0 ≤ COUNT ≤ N`, `HEAD, TAIL < N` and `HEAD = (TAIL + COUNT) mod N`; and where
they hold, `HEAD = TAIL` exactly on the empty and the full buffer, which only `COUNT` tells apart. -/
def Obligations.OperationsKeepRingInvariants : Prop :=
  (∀ (i : Instr) (s t : State), s.params.legal = true → s.ringInv → exec i s = .next t → t.ringInv) ∧
  ∀ s : State, s.params.legal = true → s.ringInv →
    (s.head = s.tail ↔ s.count.toNat = 0 ∨ s.count.toNat = s.params.n)

/-- What each operation does to the queue the ring stands for: the receive handler with room appends `RX_DATA`, a pop of a
non-empty buffer removes the head and answers it, and nothing else changes the queue (R88). -/
def Obligations.OperationsRefineQueue : Prop :=
  ∀ (i : Instr) (s t : State), s.params.legal = true → s.ringInv → exec i s = .next t →
    (i = .isrRx → s.count.toNat < s.params.n → t.queue = s.queue ++ [fitElem s.params.wT s.rxData]) ∧
    (i = .rbPop → s.count ≠ 0#8 → ∃ v, s.queue = v :: t.queue ∧ t.resp = some ⟨.ok, v.setWidth 32⟩) ∧
    ((i = .isrRx → s.count.toNat = s.params.n) → (i = .rbPop → s.count = 0#8) → t.queue = s.queue)

/-- R88: over any Layer A run from reset, the values successful pops answered are, in order and each once, the first of
those successful pushes stored, and the difference of the two numbers is `COUNT`. The spec marks the rule as derived from
R80 to R83. -/
def Obligations.FirstInFirstOut : Prop :=
  ∀ (p : Params) (ls : List Line) (s : State), p.legal = true → (∀ l ∈ ls, l.layerA = true) →
    runLines ls (State.resetWith p) = .next s →
    pushedElems ls (State.resetWith p) =
      poppedData ls (State.resetWith p) ++ s.queue.map (fun v => v.setWidth 32) ∧
    s.count.toNat = (pushedElems ls (State.resetWith p)).length - (poppedData ls (State.resetWith p)).length

/-- R92: what `RB.PEEK` answers is what the next `RB.POP` answers, and a second `RB.PEEK` (R84), whatever Layer A steps that
are no pop come between. The spec marks R92 as derived from R82 to R84. -/
def Obligations.PeekThenPop : Prop :=
  ∀ (s u v : State) (ls : List Line) (d : Word), s.params.legal = true → s.ringInv →
    exec .rbPeek s = .next u → u.resp = some ⟨.ok, d⟩ →
    (∀ l ∈ ls, l.layerA = true ∧ l ≠ .word 0x10000000#32 ∧ l ≠ .port 0x10000000#32) →
    runLines ls u = .next v →
    (∃ w, exec .rbPop v = .next w ∧ w.resp = some ⟨.ok, d⟩) ∧ exec .rbPeek v = .next { v with resp := some ⟨.ok, d⟩ }

/-- R175: the answers that stay true until the consumer pops: once `RB.AVAIL` is 1 it stays 1, and once `RB.ISFULL` is 1 it
stays 1, under every other operation. -/
def Obligations.AvailabilityAndFullnessLastUntilPop : Prop :=
  ∀ (i : Instr) (s t : State), s.params.legal = true → s.ringInv → exec i s = .next t → i ≠ .rbPop →
    (s.count.toNat ≠ 0 → t.count.toNat ≠ 0) ∧ (s.count.toNat = s.params.n → t.count.toNat = t.params.n)

/-! ## Clock -/

/-- R102: `CLK.INIT` copies the level of `env.time_invalid` to `FAULT`, answers it, and writes nothing else. -/
def Obligations.InitSamplesTimeInvalid : Prop :=
  encode .clkInit = 0x20000000#32 ∧
  ∀ s : State, exec .clkInit s =
    .next { s with fault := s.envTimeInvalid, resp := some ⟨.ok, if s.envTimeInvalid then 1#32 else 0#32⟩ }

/-- R103: the three outcomes of `CLK.SETPERIOD p`: Off without consulting `env.src_ok`, refused and left Off, or the source
enabled with `p` and the period floor(p * 1000 / F_TICK). Nothing else is written: not `ACC`, `TICK_PEND`, `IE`. The
state after a refusal is the spec's own reading, D10 of R103 (d): log entry 19. -/
def Obligations.SetPeriodProgramsSource : Prop :=
  (∀ p, encode (.clkSetPeriod p) = 0x21000000#32 + p.setWidth 32) ∧
  ∀ (p : Half) (s : State), 1 ≤ s.params.fTick →
    ∃ t, exec (.clkSetPeriod p) s = .next t ∧
      (p = 0#16 → t.srcEn = false ∧ t.srcCnt = 0#16 ∧ t.tickPeriodMs = 0#32 ∧ t.resp = some ⟨.ok, 1#32⟩) ∧
      (p ≠ 0#16 → s.envSrcOk = false →
        t.srcEn = false ∧ t.srcCnt = 0#16 ∧ t.tickPeriodMs = 0#32 ∧ t.resp = some ⟨.ok, 0#32⟩) ∧
      (p ≠ 0#16 → s.envSrcOk = true →
        t.srcEn = true ∧ t.srcCnt = p ∧ t.tickPeriodMs.toNat = p.toNat * 1000 / s.params.fTick ∧
        t.resp = some ⟨.ok, 1#32⟩) ∧
      t = { s with srcEn := t.srcEn, srcCnt := t.srcCnt, tickPeriodMs := t.tickPeriodMs, resp := t.resp }

/-- R104: `CLK.STOP` puts the source in the Off state and answers true, exactly as `CLK.SETPERIOD 0` does. -/
def Obligations.StopIsSetPeriodOff : Prop :=
  encode .clkStop = 0x22000000#32 ∧
  ∀ s : State,
    exec .clkStop s =
      .next { s with srcEn := false, srcCnt := 0#16, tickPeriodMs := 0#32, resp := some ⟨.ok, 1#32⟩ } ∧
    exec .clkStop s = exec (.clkSetPeriod 0#16) s

/-- R105, R106, R107: `CLK.GETMS` answers `ACC`, `CLK.STATUS` has `FAULT` in bit 0, `SRC_EN` in bit 1 and 0 above,
`CLK.GETPERIOD` answers `TICK_PERIOD_MS`; none changes any state. -/
def Obligations.ClockReadsAnswerRegisters : Prop :=
  encode .clkGetMs = 0x23000000#32 ∧ encode .clkStatus = 0x24000000#32 ∧ encode .clkGetPeriod = 0x25000000#32 ∧
  ∀ s : State,
    exec .clkGetMs s = .next { s with resp := some ⟨.ok, s.acc⟩ } ∧
    exec .clkGetPeriod s = .next { s with resp := some ⟨.ok, s.tickPeriodMs⟩ } ∧
    ∃ d : Word, exec .clkStatus s = .next { s with resp := some ⟨.ok, d⟩ } ∧
      d.getLsbD 0 = s.fault ∧ d.getLsbD 1 = s.srcEn ∧ ∀ k, 2 ≤ k → d.getLsbD k = false

/-- R108 with R100: `ISR.TICK` adds the period to the accumulator modulo 2^32, clears `TICK_PEND`, whatever `SRC_EN` is, and
changes nothing else. Not enabled, it cannot happen. -/
def Obligations.TickHandlerAccumulates : Prop :=
  encode .isrTick = 0x90000000#32 ∧
  ∀ s : State,
    (s.ie = true → s.boundTick = true → s.tickPend = true → s.micro.ctx = .main →
      ∃ t, exec .isrTick s = .next t ∧
        t.acc.toNat = (s.acc.toNat + s.tickPeriodMs.toNat) % 2 ^ 32 ∧ t.tickPend = false ∧ t.resp = none ∧
        t = { s with acc := t.acc, tickPend := t.tickPend, resp := t.resp }) ∧
    (s.ie = false ∨ s.boundTick = false ∨ s.tickPend = false →
      exec .isrTick s = .fault (.dispatchNotEnabled .tick))

/-- R113: `ACC` is changed by `ISR.TICK` only, the period, countdown and source enable by `CLK.SETPERIOD` and `CLK.STOP`
only, `FAULT` by `CLK.INIT` only. -/
def Obligations.WhoChangesClockState : Prop :=
  ∀ (i : Instr) (s t : State), exec i s = .next t →
    (i ≠ .isrTick → t.acc = s.acc) ∧
    ((∀ p, i ≠ .clkSetPeriod p) → i ≠ .clkStop →
      t.tickPeriodMs = s.tickPeriodMs ∧ t.srcCnt = s.srcCnt ∧ t.srcEn = s.srcEn) ∧
    (i ≠ .clkInit → t.fault = s.fault)

/-- R109: over any Layer A run from reset, `CLK.GETMS` answers the sum modulo 2^32 of the values the period had at each run
of the tick handler; with `M` runs at one period `P` that is `(M * P) mod 2^32`. The spec marks the rule as
derived from R22, R100 and R108. -/
def Obligations.ExactMillisecondCount : Prop :=
  ∀ (q : Params) (ls : List Line) (s : State), (∀ l ∈ ls, l.layerA = true) →
    runLines ls (State.resetWith q) = .next s →
    (∃ t d, exec .clkGetMs s = .next t ∧ t.resp = some ⟨.ok, d⟩ ∧
      d.toNat = (tickPeriods ls (State.resetWith q)).sum % 2 ^ 32) ∧
    ∀ m p, (tickPeriods ls (State.resetWith q)) = List.replicate m p → s.acc.toNat = m * p % 2 ^ 32

/-- R110: between two `CLK.GETMS` of one run the difference modulo 2^32 is the sum of the periods added between them, the
true count while that is below 2^32, and the later is not below the earlier unless the accumulator wrapped. The spec marks the
rule as derived from R22, R100, R105 and R108. -/
def Obligations.MonotonicModuloWrap : Prop :=
  ∀ (ls : List Line) (s t : State) (a b : Word), (∀ l ∈ ls, l.layerA = true) → runLines ls s = .next t →
    exec .clkGetMs s = .next { s with resp := some ⟨.ok, a⟩ } →
    exec .clkGetMs t = .next { t with resp := some ⟨.ok, b⟩ } →
    (b - a).toNat = (tickPeriods ls s).sum % 2 ^ 32 ∧
    ((tickPeriods ls s).sum < 2 ^ 32 → (b - a).toNat = (tickPeriods ls s).sum) ∧
    (a.toNat + (tickPeriods ls s).sum < 2 ^ 32 → a.toNat ≤ b.toNat)

/-- The clock registers stay one of the two states `CLK.SETPERIOD` and `CLK.STOP` leave, so the period is a legal value of
R23: 0 or floor(p * 1000 / F_TICK), at most 65 535 000. -/
def Obligations.ClockRegistersStayLegal : Prop :=
  ∀ (i : Instr) (s t : State), s.params.legal = true → s.clockInv → exec i s = .next t →
    t.clockInv ∧ t.tickPeriodMs.toNat ≤ 65535000

/-! ## Events and dispatch -/

/-- R132 and R69: `EV.TICK` sets `TICK_PEND` and nothing else iff `SRC_EN = 1`, whatever `IE` and `BOUND[0]` are;
otherwise it cannot happen. -/
def Obligations.TickEventRaisesPending : Prop :=
  encode .evTick = 0x80000000#32 ∧
  ∀ s : State,
    (s.srcEn = true → exec .evTick s = .next { s with tickPend := true, resp := none }) ∧
    (s.srcEn = false → exec .evTick s = .fault .tickSourceDisabled)

/-- R133: `EV.RX d` sets `RX_PEND`. Without an overrun `RX_DATA` is the datum. With one it is the old datum or the new one, as
the free value drawn says (log entry 8): every Layer A state is such a case. Only inside a Layer B `ISR.RX` that has stored
the old datum and not yet cleared `RX_PEND` is the new one lost whatever is drawn (log entry 23). No other register changes. -/
def Obligations.ReceiveEventLatchesDatum : Prop :=
  (∀ d, encode (.evRx d) = 0x81000000#32 + d.setWidth 32) ∧
  ∀ (d : Elem) (s : State), d.toNat < 2 ^ s.params.wT → s.params.legal = true →
    ∃ t, exec (.evRx d) s = .next t ∧ t.rxPend = true ∧ t.resp = none ∧
      (s.rxPend = false → t.rxData = d ∧ t.draws = s.draws) ∧
      (s.rxPend = true → t.draws = s.draws + 1) ∧
      (s.rxPend = true → rxStored s = false →
        t.rxData = if Config.overrunKeepsOld s.draws then s.rxData else d) ∧
      (s.rxPend = true → rxStored s = true → t.rxData = s.rxData) ∧
      (s.micro.ctx = .main → rxStored s = false) ∧
      t = { s with rxPend := t.rxPend, rxData := t.rxData, resp := t.resp, draws := t.draws }

/-- R149: `EV.ENV ok, ti` sets the two input levels and changes no state of the block. -/
def Obligations.EnvironmentEventSetsLevels : Prop :=
  (∀ ok ti, encode (.evEnv ok ti) = 0x82000000#32 + (if ok then 2#32 else 0#32) + (if ti then 1#32 else 0#32)) ∧
  ∀ (ok ti : Bool) (s : State),
    exec (.evEnv ok ti) s = .next { s with envTimeInvalid := ti, envSrcOk := ok, resp := none }

/-- R134: a handler is dispatched iff `IE = 1`, its channel is bound and pending, and no handler holds the core; otherwise
the dispatch cannot happen. -/
def Obligations.DispatchCondition : Prop :=
  ∀ s : State, s.params.legal = true → s.ringInv →
    ((∃ t, exec .isrTick s = .next t) ↔
      s.ie = true ∧ s.boundTick = true ∧ s.tickPend = true ∧ s.micro.ctx = .main) ∧
    ((∃ t, exec .isrRx s = .next t) ↔ s.ie = true ∧ s.boundRx = true ∧ s.rxPend = true ∧ s.micro.ctx = .main) ∧
    (dispatchable .tick s = false → exec .isrTick s = .fault (.dispatchNotEnabled .tick)) ∧
    (dispatchable .rx s = false → exec .isrRx s = .fault (.dispatchNotEnabled .rx))

/-- R139: requests do not queue. However many Layer A lines that dispatch no `ISR.TICK` stand between two ticks and before the
handler, the second tick changes nothing, the handler runs once and `ACC` advances by one period, the one of the dispatch.
The same for two data, with no third between: the handler runs once and, with room, pushes one of the two. -/
def Obligations.RequestsMerge : Prop :=
  (∀ (s t t' u u' v : State) (between before : List Line),
    undispatched .tick between → undispatched .tick before →
    exec .evTick s = .next t → runLines between t = .next t' → exec .evTick t' = .next u →
    runLines before u = .next u' → exec .isrTick u' = .next v →
    u = { t' with resp := none } ∧ v.acc.toNat = (s.acc.toNat + u'.tickPeriodMs.toNat) % 2 ^ 32 ∧
    exec .isrTick v = .fault (.dispatchNotEnabled .tick)) ∧
  ∀ (s t t' u u' v : State) (between before : List Line) (d₁ d₂ : Elem), s.params.legal = true → s.ringInv →
    d₁.toNat < 2 ^ s.params.wT → d₂.toNat < 2 ^ s.params.wT → s.rxPend = false →
    undispatched .rx between → undispatched .rx before →
    (∀ l ∈ between ++ before, ∀ d, l ≠ .word (encode (.evRx d))) →
    exec (.evRx d₁) s = .next t → runLines between t = .next t' → exec (.evRx d₂) t' = .next u →
    runLines before u = .next u' → exec .isrRx u' = .next v →
    (u'.count.toNat < u'.params.n → v.queue = u'.queue ++ [d₁] ∨ v.queue = u'.queue ++ [d₂]) ∧
    exec .isrRx v = .fault (.dispatchNotEnabled .rx)

/-- R140: when both handlers are dispatchable both orders are possible and lead to the same state. The spec marks the
second half as derived from R93 and R108. -/
def Obligations.HandlersCommute : Prop :=
  ∀ s : State, s.params.legal = true → s.ringInv → dispatchable .tick s = true → dispatchable .rx s = true →
    ∃ t r u, exec .isrTick s = .next t ∧ exec .isrRx t = .next u ∧ exec .isrRx s = .next r ∧ exec .isrTick r = .next u

/-- The writers of R39: a pending flag is set by its event and cleared by its handler alone, `BOUND` is only ever set and by
`IRQ.BIND` alone, `RX_DATA` is written by `EV.RX` alone, the input levels by `EV.ENV` alone. -/
def Obligations.WhoChangesGateState : Prop :=
  ∀ (i : Instr) (s t : State), exec i s = .next t →
    (s.tickPend = true → t.tickPend = false → i = .isrTick) ∧ (s.tickPend = false → t.tickPend = true → i = .evTick) ∧
    (s.rxPend = true → t.rxPend = false → i = .isrRx) ∧ (s.rxPend = false → t.rxPend = true → ∃ d, i = .evRx d) ∧
    (s.boundTick = true → t.boundTick = true) ∧ (s.boundRx = true → t.boundRx = true) ∧
    (s.boundTick = false → t.boundTick = true → i = .irqBind .tick) ∧
    (s.boundRx = false → t.boundRx = true → i = .irqBind .rx) ∧
    ((∀ d, i ≠ .evRx d) → t.rxData = s.rxData) ∧
    ((∀ ok ti, i ≠ .evEnv ok ti) → t.envTimeInvalid = s.envTimeInvalid ∧ t.envSrcOk = s.envSrcOk)

/-- The writers of R39 on the ring: `BUF` and `HEAD` are written by the receive handler alone, `TAIL` by `RB.POP` alone,
`COUNT` goes up in the handler and down in `RB.POP` alone (R28, R29, R90). -/
def Obligations.WhoChangesRingState : Prop :=
  ∀ (i : Instr) (s t : State), exec i s = .next t →
    (i ≠ .isrRx → t.buf = s.buf ∧ t.head = s.head) ∧ (i ≠ .rbPop → t.tail = s.tail) ∧
    (i ≠ .isrRx → i ≠ .rbPop → t.count = s.count)

/-- R63: every word on the command port is answered by one response. The status is `ERR` exactly when the word is no legal
command, and then the data is 0 and no state changed; with `EMPTY` the data is 0; the reserved status is never produced.
Events and dispatch steps drive no response. -/
def Obligations.ExactlyCommandsAreAnswered : Prop :=
  (∀ (w : Word) (s t : State), performLine (.port w) s = .next t →
    ∃ r, t.resp = some r ∧ r.st.code ≠ 0b10#2 ∧ (r.st = .err ↔ decodeHost s.params.wT w = none) ∧
      (r.st = .err → r.d = 0#32 ∧ t = { s with resp := t.resp }) ∧ (r.st = .empty → r.d = 0#32)) ∧
  (∀ (w : Word) (s : State), hostReady s = true → s.params.legal = true → s.ringInv →
    ∃ t, performLine (.port w) s = .next t) ∧
  ∀ (i : Instr) (s t : State), exec i s = .next t → i.cls ≠ .hostCommand → t.resp = none

/-- R57: a second `RB.PEEK`, `CLK.GETMS`, `CLK.GETPERIOD`, `CLK.STATUS`, `RB.ISEMPTY`, `RB.ISFULL` or `RB.AVAIL` answers the
same and leaves the same state. -/
def Obligations.ReadsAreIdempotent : Prop :=
  ∀ (i : Instr) (s t : State),
    i ∈ [Instr.rbPeek, .clkGetMs, .clkGetPeriod, .clkStatus, .rbIsEmpty, .rbIsFull, .rbAvail] →
    exec i s = .next t → exec i t = .next t

/-- R149: under weak fairness of the dispatcher, a bound channel that is pending while `IE` stays 1 is served, in every
infinite Layer A run. -/
def Obligations.FairDispatchServesPending : Prop :=
  ∀ (ch : Channel) (lines : Nat → Line) (states : Nat → State) (k : Nat),
    InfiniteRun lines states → (∀ m, (lines m).layerA = true) → WeaklyFair ch lines states →
    (∀ m, k ≤ m → (states m).ie = true) → bound (states k) ch = true → pending (states k) ch = true →
    (states k).micro.ctx = .main →
    ∃ m, k ≤ m ∧ lines m = .word (dispatchWord ch) ∧ pending (states (m + 1)) ch = false

/-! ## Whole-machine invariants, both layers -/

/-- R6: no step of any kind changes `N`, `W_T`, `F_TICK` or `W_DP`. Nor the script, whose pointer every step advances by
exactly 1 (R21); that the script is held in the state and that a reset keeps it is the model's choice, log entries 2 and
22. -/
def Obligations.StepKeepsParametersAndScript : Prop :=
  ∀ s t : State, step s = .next t → t.params = s.params ∧ t.script = s.script ∧ t.sp = s.sp + 1

/-- Every step keeps the ring storage in canonical form, its elements and `RX_DATA` within `W_T` bits and its indices below
`N` (R27, R40). -/
def Obligations.StepKeepsStorageWellFormed : Prop :=
  ∀ s t : State, s.params.legal = true → s.dataInv → step s = .next t → t.dataInv

/-- Every step keeps the gate at both layers: micro-steps in sequence, `IE = 0` through every bracket of R48, and a handler
in progress only with `IE = 1` (R48, R53). -/
def Obligations.StepKeepsGate : Prop :=
  ∀ s t : State, s.gateInv → step s = .next t → t.gateInv

/-- R81 at both layers: every step keeps the ring coherent, so no operation computes with values of the ring from two
different states. -/
def Obligations.StepKeepsRingCoherent : Prop :=
  ∀ s t : State, s.params.legal = true → s.gateInv → s.ringCoherent → step s = .next t → t.ringCoherent

/-- Every step keeps the clock registers coherent at both layers, lane by lane through `CLK.SETPERIOD` and `CLK.STOP`
(R112). The order of the lanes of `SRC_CNT` is the model's choice, log entry 29. -/
def Obligations.StepKeepsClockCoherent : Prop :=
  ∀ s t : State, s.params.legal = true → s.gateInv → s.clockCoherent → step s = .next t → t.clockCoherent

/-- From every coherent state an operation in progress has a next micro-step: no handler ever waits or stops (R137, R172), and
no command (R63, R177). -/
def Obligations.OperationsInProgressGoOn : Prop :=
  ∀ s : State, s.params.legal = true → s.gateInv → s.ringCoherent → hostReady s = false →
    ∃ t, performLine .micro s = .next t

/-! ## Layer B refines Layer A -/

/-- R91, R112: the micro-sequence of each host command, run without interruption, gives the response and the state of the
command at Layer A. -/
def Obligations.MicroSequenceEqualsCommand : Prop :=
  ∀ (i : Instr) (s t : State), i.cls = .hostCommand → hostReady s = true → exec i s = .next t →
    ∃ k u, runLines (.start (encode i) :: List.replicate k .micro) s = .next u ∧
      hostReady u = true ∧ u.resp = t.resp ∧ u.layerA = t.layerA

/-- R91, R112: each handler entered at Layer B and run to its end gives the state of its dispatch at Layer A; for
`ISR.TICK` the lane-wise addition with carry is the 32-bit addition of R100. -/
def Obligations.MicroHandlerEqualsDispatch : Prop :=
  ∀ (s : State), s.params.legal = true → s.ringInv →
    (∀ t, exec .isrTick s = .next t →
      ∃ k u, runLines (.enter .tick :: List.replicate k .micro) s = .next u ∧ u.micro.ctx = .main ∧
        u.micro.main = s.micro.main ∧ u.layerA = t.layerA) ∧
    (∀ t, exec .isrRx s = .next t →
      ∃ k u, runLines (.enter .rx :: List.replicate k .micro) s = .next u ∧ u.micro.ctx = .main ∧
        u.micro.main = s.micro.main ∧ u.layerA = t.layerA)

/-- R52: while a handler holds the core the main context makes no step and its part of the state stays: only the handler's
micro-steps and source events can happen. -/
def Obligations.MainContextWaitsForHandler : Prop :=
  ∀ (s t : State) (l : Line) (ch : Channel) (k : Nat), s.micro.ctx = .isr ch k → l ≠ .reset →
    performLine l s = .next t →
    (l = .micro ∨ ∃ w i, l = .word w ∧ decode s.params.wT w = .ok i ∧ i.cls = .sourceEvent) ∧
    t.micro.main = s.micro.main ∧ t.tail = s.tail ∧ t.ie = s.ie ∧ t.tickPeriodMs = s.tickPeriodMs ∧
    t.srcCnt = s.srcCnt ∧ t.srcEn = s.srcEn ∧ t.fault = s.fault ∧ t.boundTick = s.boundTick ∧ t.boundRx = s.boundRx ∧
    t.resp = none

/-- R138: while a handler holds the core no handler can start, at either layer, and the source events still happen and raise
their flags. A micro-step of the handler changes no pending flag but its own, and that one only at the clearing micro-step
(R91, R112), which takes with it what was raised before. So a request of the other channel, and one of its own raised after
that micro-step, is kept through the return, and its handler can then be dispatched wherever it is bound and `IE = 1`. -/
def Obligations.HandlersDoNotNest : Prop :=
  ∀ (s : State) (ch : Channel) (u : Nat), s.micro.ctx = .isr ch u →
    (∀ c, performLine (.enter c) s = .fault (.dispatchNotEnabled c)) ∧
    exec .isrTick s = .fault (.dispatchNotEnabled .tick) ∧ exec .isrRx s = .fault (.dispatchNotEnabled .rx) ∧
    (s.srcEn = true → exec .evTick s = .next { s with tickPend := true, resp := none }) ∧
    (∀ d, ∃ t, exec (.evRx d) s = .next t ∧ t.rxPend = true ∧ t.tickPend = s.tickPend ∧ t.micro = s.micro) ∧
    (∀ t, performLine .micro s = .next t → ∀ c,
      pending t c = if c = ch ∧ u = clearIsrMicro s.params.wDp ch then false else pending s c) ∧
    (u = lastIsrMicro s.params.wDp ch → ∃ t, performLine .micro s = .next t ∧
      t = { s with micro.ctx := .main, resp := none } ∧
      ∀ c, dispatchable c t = (s.ie && bound s c && pending s c))

/-- R53, R134: at either layer a handler can start in a gap exactly where `IE = 1` and it is bound and pending, no other
handler holding the core; at Layer B that includes the gaps inside a command. -/
def Obligations.HandlerStartsExactlyWithIe : Prop :=
  ∀ (s : State) (ch : Channel),
    ((∃ t, performLine (.enter ch) s = .next t) ↔
      s.ie = true ∧ bound s ch = true ∧ pending s ch = true ∧ s.micro.ctx = .main) ∧
    (∀ t, performLine (.word (dispatchWord ch)) s = .next t →
      s.ie = true ∧ bound s ch = true ∧ pending s ch = true ∧ s.micro.ctx = .main)

/-- R111: at Layer B, whatever handlers, events and dispatches come between its micro-steps, `CLK.GETMS` answers a value
`ACC` held in one state between the command's first and last micro-step, and in that state no handler is in progress, so
no handler is half way through `ACC`. The spec marks the rule as derived from R48, R52, R53 and R112. -/
def Obligations.NoTornRead : Prop :=
  ∀ (s t : State) (ls : List Line) (d : Word), hostReady s = true →
    runLines (.start 0x23000000#32 :: ls) s = .next t → t.micro.main = .idle → t.resp = some ⟨.ok, d⟩ →
    (∀ ls₁ ls₂ u, ls = ls₁ ++ ls₂ → ls₂ ≠ [] → runLines (.start 0x23000000#32 :: ls₁) s = .next u →
      u.micro.main ≠ .idle) →
    ∃ ls₁ ls₂ u k, ls = ls₁ ++ ls₂ ∧ ls₂ ≠ [] ∧ runLines (.start 0x23000000#32 :: ls₁) s = .next u ∧
      u.micro.ctx = .main ∧ u.micro.main = .busy .clkGetMs k ∧ 2 ≤ k ∧ k ≤ lastMicro s.params.wDp .clkGetMs ∧ u.acc = d

/-- R49, with handlers taken whole: every run of commands as micro-sequences, with source events and dispatches in any gap
that allows them, is a run of whole commands: the same commands, events and dispatches in their orders, the same
responses, the same final state. -/
def Obligations.MicroRunsRefineCommandRuns : Prop :=
  ∀ (ls : List Line) (s t : State), hostReady s = true → hostReady t = true →
    (∀ l ∈ ls, l = .micro ∨ (∃ w, l = .start w) ∨ ∃ w, l = .word w ∧ isTraceWord w = true) →
    runLines ls s = .next t →
    ∃ (ks : List Line) (u : State),
      (∀ l ∈ ks, (∃ w, l = .port w) ∨ ∃ w, l = .word w ∧ isTraceWord w = true) ∧
      hostWords ks = hostWords ls ∧ traceWords ks = traceWords ls ∧
      runLines ks s = .next u ∧ responses ks s = responses ls s ∧ u.layerA = t.layerA

/-- R49: every Layer B run, commands and handlers both taken micro-step by micro-step and events in any gap, has a Layer A run
that the spec admits: the same commands and events in their orders, as many dispatches of each handler, the same responses,
the same final Layer A state. Where no datum arrives inside `ISR.RX` after it has stored its own and before it clears
`RX_PEND`, that run is one of the machine itself; where one does, the Layer A run takes the overrun's other outcome if the
free value says the new datum (log entry 23). The spec marks the rule as derived from R45, R48, R52 and R53. -/
def Obligations.LayerBRefinesLayerA : Prop :=
  ∀ (ls : List Line) (s t : State), hostReady s = true → hostReady t = true →
    (∀ l ∈ ls, l = .micro ∨ (∃ w, l = .start w) ∨ (∃ ch, l = .enter ch) ∨ ∃ w, l = .word w ∧ isTraceWord w = true) →
    runLines ls s = .next t →
    ∃ (ks : List Line) (u : State),
      (∀ l ∈ ks, (∃ w, l = .port w) ∨ ∃ w, l = .word w ∧ isTraceWord w = true) ∧
      hostWords ks = hostWords ls ∧ eventWords ks = eventWords ls ∧ (∀ ch, dispatches ch ks = dispatches ch ls) ∧
      AdmittedRun ks s (responses ls s) u ∧ u.layerA = t.layerA ∧
      (receiveQuiet ls s = true → runLines ks s = .next u ∧ responses ks s = responses ls s)
end

