-- ==== Sys2Proof/Laws/Decode.lean ====
section
/-! SUPPORT. The fields of a word (R60) and the word of given fields; what the encoder puts in each field. -/

namespace Sys2Proof

/-- The number a word of given fields is. -/
theorem toNat_ofFields (op z : Byte) (imm : Half) :
    (op ++ (z ++ imm) : Word).toNat = op.toNat * 2 ^ 24 + z.toNat * 2 ^ 16 + imm.toNat := by
  have h1 := op.isLt; have h2 := z.isLt; have h3 := imm.isLt
  rw [BitVec.toNat_append, BitVec.toNat_append, ← Nat.shiftLeft_add_eq_or_of_lt h3,
    ← Nat.shiftLeft_add_eq_or_of_lt (by simp only [Nat.shiftLeft_eq]; omega)]
  simp only [Nat.shiftLeft_eq]; omega

/-- The fields of a word as numbers. -/
theorem fieldOp_toNat (w : Word) : (fieldOp w).toNat = w.toNat / 2 ^ 24 := by
  have := w.isLt
  simp only [fieldOp, BitVec.extractLsb'_toNat, Nat.shiftRight_eq_div_pow]; omega

theorem fieldZ_toNat (w : Word) : (fieldZ w).toNat = w.toNat / 2 ^ 16 % 2 ^ 8 := by
  simp only [fieldZ, BitVec.extractLsb'_toNat, Nat.shiftRight_eq_div_pow]

theorem fieldImm_toNat (w : Word) : (fieldImm w).toNat = w.toNat % 2 ^ 16 := by
  simp only [fieldImm, BitVec.extractLsb'_toNat, Nat.shiftRight_eq_div_pow]; omega

@[simp] theorem fieldOp_ofFields (op z : Byte) (imm : Half) : fieldOp (op ++ (z ++ imm)) = op := by
  have h1 := op.isLt; have h2 := z.isLt; have h3 := imm.isLt
  apply BitVec.eq_of_toNat_eq
  rw [fieldOp_toNat, toNat_ofFields]; omega

@[simp] theorem fieldZ_ofFields (op z : Byte) (imm : Half) : fieldZ (op ++ (z ++ imm)) = z := by
  have h1 := op.isLt; have h2 := z.isLt; have h3 := imm.isLt
  apply BitVec.eq_of_toNat_eq
  rw [fieldZ_toNat, toNat_ofFields]; omega

@[simp] theorem fieldImm_ofFields (op z : Byte) (imm : Half) : fieldImm (op ++ (z ++ imm)) = imm := by
  have h1 := op.isLt; have h2 := z.isLt; have h3 := imm.isLt
  apply BitVec.eq_of_toNat_eq
  rw [fieldImm_toNat, toNat_ofFields]; omega

/-- A word is its three fields. -/
theorem word_eq_fields (w : Word) : fieldOp w ++ (fieldZ w ++ fieldImm w) = w := by
  have := w.isLt
  apply BitVec.eq_of_toNat_eq
  rw [toNat_ofFields, fieldOp_toNat, fieldZ_toNat, fieldImm_toNat]; omega

@[simp] theorem fieldOp_encode (i : Instr) : fieldOp (encode i) = i.opcode := fieldOp_ofFields _ _ _
@[simp] theorem fieldZ_encode (i : Instr) : fieldZ (encode i) = 0#8 := fieldZ_ofFields _ _ _
@[simp] theorem fieldImm_encode (i : Instr) : fieldImm (encode i) = i.operandField := fieldImm_ofFields _ _ _

/-- Decoding an encoded instruction looks at its own opcode and operand field. -/
theorem decode_encode_eq (wT : Nat) (i : Instr) : decode wT (encode i) = decodeOp wT i.opcode i.operandField := by
  simp [decode]

/-- What decodes has `z = 0`. -/
theorem decode_ok_iff {wT : Nat} {w : Word} {i : Instr} :
    decode wT w = .ok i ↔ fieldZ w = 0#8 ∧ decodeOp wT (fieldOp w) (fieldImm w) = .ok i := by
  unfold decode; split <;> simp_all

theorem decodeZ_ok {imm : Half} {i j : Instr} : decodeZ imm i = .ok j ↔ imm = 0#16 ∧ i = j := by
  unfold decodeZ; split <;> simp_all

theorem decodeS_ok {imm : Half} {mk : Bool → Instr} {j : Instr} :
    decodeS imm mk = .ok j ↔ imm.toNat < 2 ∧ mk (imm.getLsbD 0) = j := by
  unfold decodeS; split <;> simp_all

theorem decodeD_ok {wT : Nat} {imm : Half} {j : Instr} :
    decodeD wT imm = .ok j ↔ imm.toNat < 2 ^ wT ∧ .evRx imm = j := by
  unfold decodeD; split <;> simp_all

theorem decodeE_ok {imm : Half} {j : Instr} :
    decodeE imm = .ok j ↔ imm.toNat < 4 ∧ .evEnv (imm.getLsbD 1) (imm.getLsbD 0) = j := by
  unfold decodeE; split <;> simp_all

/-- A 16-bit value below 2 is one of two. -/
theorem half_lt_two {x : Half} (h : x.toNat < 2) : x = 0#16 ∨ x = 1#16 := by
  rcases Nat.lt_or_ge x.toNat 1 with h1 | h1
  · exact .inl (BitVec.eq_of_toNat_eq (by simp; omega))
  · exact .inr (BitVec.eq_of_toNat_eq (by simp; omega))

/-- A 16-bit value below 4 is one of four. -/
theorem half_lt_four {x : Half} (h : x.toNat < 4) : x = 0#16 ∨ x = 1#16 ∨ x = 2#16 ∨ x = 3#16 := by
  have : x.toNat = 0 ∨ x.toNat = 1 ∨ x.toNat = 2 ∨ x.toNat = 3 := by omega
  rcases this with h | h | h | h
  · exact .inl (BitVec.eq_of_toNat_eq (by simp [h]))
  · exact .inr (.inl (BitVec.eq_of_toNat_eq (by simp [h])))
  · exact .inr (.inr (.inl (BitVec.eq_of_toNat_eq (by simp [h]))))
  · exact .inr (.inr (.inr (BitVec.eq_of_toNat_eq (by simp [h]))))

/-- What the opcode map accepts: the code, the operand field and the well-formedness of the operation it gives (R62, R66). -/
theorem decodeOp_ok {wT : Nat} {op : Byte} {imm : Half} {i : Instr} (h : decodeOp wT op imm = .ok i) :
    op = i.opcode ∧ imm = i.operandField ∧ i.wellFormed wT = true := by
  have code (k : Nat) (hk : k < 256) (h : op.toNat = k) : op = BitVec.ofNat 8 k := by
    apply BitVec.eq_of_toNat_eq; simp [h]; omega
  unfold decodeOp at h
  split at h
  all_goals first
    | (obtain ⟨rfl, rfl⟩ := decodeZ_ok.mp h
       exact ⟨code _ (by decide) ‹_›, rfl, rfl⟩)
    | (obtain ⟨h1, rfl⟩ := decodeS_ok.mp h
       rcases half_lt_two h1 with rfl | rfl <;> exact ⟨code _ (by decide) ‹_›, rfl, rfl⟩)
    | (obtain ⟨h1, rfl⟩ := decodeE_ok.mp h
       rcases half_lt_four h1 with rfl | rfl | rfl | rfl <;> exact ⟨code _ (by decide) ‹_›, rfl, rfl⟩)
    | (obtain ⟨h1, rfl⟩ := decodeD_ok.mp h
       exact ⟨code _ (by decide) ‹_›, rfl, by simpa [Instr.wellFormed] using h1⟩)
    | (cases h; done)
    | (cases h; exact ⟨code _ (by decide) ‹_›, rfl, rfl⟩)

/-- The command port accepts what decodes to a host command, and nothing else (R67). -/
theorem decodeHost_some_iff {wT : Nat} {w : Word} {i : Instr} :
    decodeHost wT w = some i ↔ decode wT w = .ok i ∧ i.cls = .hostCommand := by
  unfold decodeHost
  cases decode wT w with
  | error e => simp
  | ok j =>
    simp only [Except.ok.injEq]
    split
    · exact ⟨fun h => (by cases h; exact ⟨rfl, ‹_›⟩), fun h => (by rw [h.1])⟩
    · exact ⟨fun h => (by cases h), fun h => absurd (h.1 ▸ h.2) ‹_›⟩

/-- The words of events and dispatch steps are those whose operation is no host command (R61). -/
theorem isTraceWord_of_decode {wT : Nat} {w : Word} {i : Instr} (h : decode wT w = .ok i) :
    isTraceWord w = !decide (i.cls = .hostCommand) := by
  obtain ⟨ho, -, -⟩ := decodeOp_ok (decode_ok_iff.mp h).2
  unfold isTraceWord
  rw [ho]
  cases i <;> simp [Instr.opcode, Instr.cls]

end Sys2Proof
end

