-- ==== Sys2Proof/Laws/Memory.lean ====
section
/-! SUPPORT. The laws of the ring storage (R57): a read after a write, the canonical form, and which entries a write
leaves. -/

namespace Sys2Proof.Machine

@[simp] theorem Memory.read?_nil (i : Nat) : Memory.read? [] i = none := rfl

@[simp] theorem Memory.wf_nil : Memory.wf [] = true := rfl

/-- A read at the index just written gives the value written. -/
@[simp] theorem Memory.read?_write_same (m : Memory) (i : Nat) (v : Elem) : (m.write i v).read? i = some v := by
  induction m with
  | nil => simp [Memory.write, Memory.read?]
  | cons e rest ih =>
    obtain ⟨j, u⟩ := e
    simp only [Memory.write]
    split
    · simp [Memory.read?]
    · split
      · simp [Memory.read?]
      · simpa [Memory.read?, ‹¬ i = j›] using ih

/-- A write leaves every other element alone. -/
theorem Memory.read?_write_other (m : Memory) {i a : Nat} (v : Elem) (h : a ≠ i) :
    (m.write i v).read? a = m.read? a := by
  induction m with
  | nil => simp [Memory.write, Memory.read?, h]
  | cons e rest ih =>
    obtain ⟨j, u⟩ := e
    simp only [Memory.write]
    split
    · simp [Memory.read?, h]
    · split
      · subst j; simp [Memory.read?, h]
      · simp only [Memory.read?]; rw [ih]

/-- The entries after a write are the written one and old ones. -/
theorem Memory.mem_write {m : Memory} {i : Nat} {v : Elem} {e : Nat × Elem} (h : e ∈ m.write i v) :
    e = (i, v) ∨ e ∈ m := by
  induction m with
  | nil => simpa [Memory.write] using h
  | cons d rest ih =>
    obtain ⟨j, u⟩ := d
    simp only [Memory.write] at h
    split at h
    · simpa using h
    · split at h
      · rcases List.mem_cons.mp h with h | h
        · exact .inl h
        · exact .inr (List.mem_cons_of_mem _ h)
      · rcases List.mem_cons.mp h with h | h
        · exact .inr (h ▸ List.mem_cons_self)
        · exact (ih h).imp_right (List.mem_cons_of_mem _)

/-- The canonical form, one entry at a time. -/
theorem Memory.wf_cons (a : Nat × Elem) (m : Memory) :
    Memory.wf (a :: m) = true ↔ (∀ b ∈ m.head?, a.1 < b.1) ∧ m.wf = true := by
  cases m <;> simp [Memory.wf]

/-- A write keeps the canonical form. -/
theorem Memory.wf_write {m : Memory} (i : Nat) (v : Elem) (h : m.wf = true) : (m.write i v).wf = true := by
  induction m with
  | nil => rfl
  | cons e rest ih =>
    obtain ⟨j, u⟩ := e
    obtain ⟨hhead, hrest⟩ := (Memory.wf_cons _ _).mp h
    simp only [Memory.write]
    split
    · exact (Memory.wf_cons _ _).mpr ⟨by simpa using ‹i < j›, h⟩
    · split
      · subst j; exact (Memory.wf_cons _ _).mpr ⟨hhead, hrest⟩
      · refine (Memory.wf_cons _ _).mpr ⟨?_, ih hrest⟩
        have hij : j < i := by omega
        cases rest with
        | nil => simpa [Memory.write] using hij
        | cons d tail =>
          have hjd : j < d.1 := hhead d rfl
          simp only [Memory.write]
          split
          · simpa using hij
          · split
            · simpa using hij
            · simpa using hjd

/-- The storage after reset is in canonical form. -/
theorem reset_buf_wf : State.reset.buf.wf = true := rfl

/-- `BUF[i] <- v` keeps the canonical form (R57). -/
theorem writeBuf_wf {s t : State} {i : Nat} {v : Elem} (h : writeBuf s i v = .ok t) (hw : s.buf.wf = true) :
    t.buf.wf = true := by
  unfold writeBuf at h
  split at h <;> cases h
  exact Memory.wf_write i _ hw

/-- An element fits its `W_T` bits. -/
theorem fitElem_lt {wT : Nat} (h : wT ≤ 16) (v : Elem) : (fitElem wT v).toNat < 2 ^ wT := by
  have hpos : 0 < 2 ^ wT := Nat.two_pow_pos wT
  have hlt : v.toNat % 2 ^ wT < 2 ^ wT := Nat.mod_lt _ hpos
  have h16 : 2 ^ wT ≤ 2 ^ 16 := Nat.pow_le_pow_right (by decide) h
  simp only [fitElem, BitVec.toNat_ofNat]
  exact lt_of_le_of_lt (Nat.mod_le _ _) hlt

/-- A value of `W_T` bits is stored whole. -/
theorem fitElem_of_lt {wT : Nat} {v : Elem} (h : v.toNat < 2 ^ wT) : fitElem wT v = v := by
  simp [fitElem, Nat.mod_eq_of_lt h]

@[simp] theorem fitElem_fitElem (wT : Nat) (v : Elem) : fitElem wT (fitElem wT v) = fitElem wT v := by
  have hpos : 0 < 2 ^ wT := Nat.two_pow_pos wT
  apply fitElem_of_lt
  simp only [fitElem, BitVec.toNat_ofNat]
  exact lt_of_le_of_lt (Nat.mod_le _ _) (Nat.mod_lt _ hpos)

/-- The successor of an index (R80), for a legal capacity. -/
theorem nextIndex_toNat {n : Nat} (i : Byte) (h1 : 1 ≤ n) (h2 : n ≤ 255) :
    (nextIndex n i).toNat = (i.toNat + 1) % n := by
  have : (i.toNat + 1) % n < n := Nat.mod_lt _ h1
  simp only [nextIndex, BitVec.toNat_ofNat]
  exact Nat.mod_eq_of_lt (by omega)

/-- The successor of an index in range wraps to 0 at `N` (R80). -/
theorem nextIndex_of_lt {n : Nat} {i : Byte} (h : i.toNat < n) (h2 : n ≤ 255) :
    (nextIndex n i).toNat = if i.toNat + 1 = n then 0 else i.toNat + 1 := by
  rw [nextIndex_toNat i (by omega) h2]
  split
  · simp [‹i.toNat + 1 = n›]
  · exact Nat.mod_eq_of_lt (by omega)

/-- What legal parameters say. -/
theorem Params.legal_iff (p : Params) :
    p.legal = true ↔ 1 ≤ p.n ∧ p.n ≤ 255 ∧ 1 ≤ p.wT ∧ p.wT ≤ 16 ∧ 1 ≤ p.fTick := by
  simp [Params.legal, and_assoc]

end Sys2Proof.Machine
end

