-- ==== Sys2Proof/Laws/State.lean ====
section
/-! SUPPORT. One lemma per field per named update of the state, each true by definition, so that no later proof unfolds a
record update. -/

namespace Sys2Proof.Machine

/-! ### respond -/

@[simp] theorem respond_params (st : Status) (d : Word) (s : State) : (respond st d s).params = s.params := rfl
@[simp] theorem respond_acc (st : Status) (d : Word) (s : State) : (respond st d s).acc = s.acc := rfl
@[simp] theorem respond_tickPeriodMs (st : Status) (d : Word) (s : State) : (respond st d s).tickPeriodMs = s.tickPeriodMs := rfl
@[simp] theorem respond_srcCnt (st : Status) (d : Word) (s : State) : (respond st d s).srcCnt = s.srcCnt := rfl
@[simp] theorem respond_srcEn (st : Status) (d : Word) (s : State) : (respond st d s).srcEn = s.srcEn := rfl
@[simp] theorem respond_fault (st : Status) (d : Word) (s : State) : (respond st d s).fault = s.fault := rfl
@[simp] theorem respond_buf (st : Status) (d : Word) (s : State) : (respond st d s).buf = s.buf := rfl
@[simp] theorem respond_head (st : Status) (d : Word) (s : State) : (respond st d s).head = s.head := rfl
@[simp] theorem respond_tail (st : Status) (d : Word) (s : State) : (respond st d s).tail = s.tail := rfl
@[simp] theorem respond_count (st : Status) (d : Word) (s : State) : (respond st d s).count = s.count := rfl
@[simp] theorem respond_ie (st : Status) (d : Word) (s : State) : (respond st d s).ie = s.ie := rfl
@[simp] theorem respond_tickPend (st : Status) (d : Word) (s : State) : (respond st d s).tickPend = s.tickPend := rfl
@[simp] theorem respond_rxPend (st : Status) (d : Word) (s : State) : (respond st d s).rxPend = s.rxPend := rfl
@[simp] theorem respond_rxData (st : Status) (d : Word) (s : State) : (respond st d s).rxData = s.rxData := rfl
@[simp] theorem respond_boundTick (st : Status) (d : Word) (s : State) : (respond st d s).boundTick = s.boundTick := rfl
@[simp] theorem respond_boundRx (st : Status) (d : Word) (s : State) : (respond st d s).boundRx = s.boundRx := rfl
@[simp] theorem respond_envTimeInvalid (st : Status) (d : Word) (s : State) : (respond st d s).envTimeInvalid = s.envTimeInvalid := rfl
@[simp] theorem respond_envSrcOk (st : Status) (d : Word) (s : State) : (respond st d s).envSrcOk = s.envSrcOk := rfl
@[simp] theorem respond_resp (st : Status) (d : Word) (s : State) : (respond st d s).resp = some ⟨st, d⟩ := rfl
@[simp] theorem respond_micro (st : Status) (d : Word) (s : State) : (respond st d s).micro = s.micro := rfl
@[simp] theorem respond_script (st : Status) (d : Word) (s : State) : (respond st d s).script = s.script := rfl
@[simp] theorem respond_sp (st : Status) (d : Word) (s : State) : (respond st d s).sp = s.sp := rfl
@[simp] theorem respond_draws (st : Status) (d : Word) (s : State) : (respond st d s).draws = s.draws := rfl

/-! ### silent -/

@[simp] theorem silent_params (s : State) : (silent s).params = s.params := rfl
@[simp] theorem silent_acc (s : State) : (silent s).acc = s.acc := rfl
@[simp] theorem silent_tickPeriodMs (s : State) : (silent s).tickPeriodMs = s.tickPeriodMs := rfl
@[simp] theorem silent_srcCnt (s : State) : (silent s).srcCnt = s.srcCnt := rfl
@[simp] theorem silent_srcEn (s : State) : (silent s).srcEn = s.srcEn := rfl
@[simp] theorem silent_fault (s : State) : (silent s).fault = s.fault := rfl
@[simp] theorem silent_buf (s : State) : (silent s).buf = s.buf := rfl
@[simp] theorem silent_head (s : State) : (silent s).head = s.head := rfl
@[simp] theorem silent_tail (s : State) : (silent s).tail = s.tail := rfl
@[simp] theorem silent_count (s : State) : (silent s).count = s.count := rfl
@[simp] theorem silent_ie (s : State) : (silent s).ie = s.ie := rfl
@[simp] theorem silent_tickPend (s : State) : (silent s).tickPend = s.tickPend := rfl
@[simp] theorem silent_rxPend (s : State) : (silent s).rxPend = s.rxPend := rfl
@[simp] theorem silent_rxData (s : State) : (silent s).rxData = s.rxData := rfl
@[simp] theorem silent_boundTick (s : State) : (silent s).boundTick = s.boundTick := rfl
@[simp] theorem silent_boundRx (s : State) : (silent s).boundRx = s.boundRx := rfl
@[simp] theorem silent_envTimeInvalid (s : State) : (silent s).envTimeInvalid = s.envTimeInvalid := rfl
@[simp] theorem silent_envSrcOk (s : State) : (silent s).envSrcOk = s.envSrcOk := rfl
@[simp] theorem silent_resp (s : State) : (silent s).resp = none := rfl
@[simp] theorem silent_micro (s : State) : (silent s).micro = s.micro := rfl
@[simp] theorem silent_script (s : State) : (silent s).script = s.script := rfl
@[simp] theorem silent_sp (s : State) : (silent s).sp = s.sp := rfl
@[simp] theorem silent_draws (s : State) : (silent s).draws = s.draws := rfl

/-! ### critEnter_snd -/

@[simp] theorem critEnter_snd_params (s : State) : ((critEnter s).2).params = s.params := rfl
@[simp] theorem critEnter_snd_acc (s : State) : ((critEnter s).2).acc = s.acc := rfl
@[simp] theorem critEnter_snd_tickPeriodMs (s : State) : ((critEnter s).2).tickPeriodMs = s.tickPeriodMs := rfl
@[simp] theorem critEnter_snd_srcCnt (s : State) : ((critEnter s).2).srcCnt = s.srcCnt := rfl
@[simp] theorem critEnter_snd_srcEn (s : State) : ((critEnter s).2).srcEn = s.srcEn := rfl
@[simp] theorem critEnter_snd_fault (s : State) : ((critEnter s).2).fault = s.fault := rfl
@[simp] theorem critEnter_snd_buf (s : State) : ((critEnter s).2).buf = s.buf := rfl
@[simp] theorem critEnter_snd_head (s : State) : ((critEnter s).2).head = s.head := rfl
@[simp] theorem critEnter_snd_tail (s : State) : ((critEnter s).2).tail = s.tail := rfl
@[simp] theorem critEnter_snd_count (s : State) : ((critEnter s).2).count = s.count := rfl
@[simp] theorem critEnter_snd_ie (s : State) : ((critEnter s).2).ie = false := rfl
@[simp] theorem critEnter_snd_tickPend (s : State) : ((critEnter s).2).tickPend = s.tickPend := rfl
@[simp] theorem critEnter_snd_rxPend (s : State) : ((critEnter s).2).rxPend = s.rxPend := rfl
@[simp] theorem critEnter_snd_rxData (s : State) : ((critEnter s).2).rxData = s.rxData := rfl
@[simp] theorem critEnter_snd_boundTick (s : State) : ((critEnter s).2).boundTick = s.boundTick := rfl
@[simp] theorem critEnter_snd_boundRx (s : State) : ((critEnter s).2).boundRx = s.boundRx := rfl
@[simp] theorem critEnter_snd_envTimeInvalid (s : State) : ((critEnter s).2).envTimeInvalid = s.envTimeInvalid := rfl
@[simp] theorem critEnter_snd_envSrcOk (s : State) : ((critEnter s).2).envSrcOk = s.envSrcOk := rfl
@[simp] theorem critEnter_snd_resp (s : State) : ((critEnter s).2).resp = s.resp := rfl
@[simp] theorem critEnter_snd_micro (s : State) : ((critEnter s).2).micro = s.micro := rfl
@[simp] theorem critEnter_snd_script (s : State) : ((critEnter s).2).script = s.script := rfl
@[simp] theorem critEnter_snd_sp (s : State) : ((critEnter s).2).sp = s.sp := rfl
@[simp] theorem critEnter_snd_draws (s : State) : ((critEnter s).2).draws = s.draws := rfl

/-! ### critExit -/

@[simp] theorem critExit_params (b : Bool) (s : State) : (critExit b s).params = s.params := rfl
@[simp] theorem critExit_acc (b : Bool) (s : State) : (critExit b s).acc = s.acc := rfl
@[simp] theorem critExit_tickPeriodMs (b : Bool) (s : State) : (critExit b s).tickPeriodMs = s.tickPeriodMs := rfl
@[simp] theorem critExit_srcCnt (b : Bool) (s : State) : (critExit b s).srcCnt = s.srcCnt := rfl
@[simp] theorem critExit_srcEn (b : Bool) (s : State) : (critExit b s).srcEn = s.srcEn := rfl
@[simp] theorem critExit_fault (b : Bool) (s : State) : (critExit b s).fault = s.fault := rfl
@[simp] theorem critExit_buf (b : Bool) (s : State) : (critExit b s).buf = s.buf := rfl
@[simp] theorem critExit_head (b : Bool) (s : State) : (critExit b s).head = s.head := rfl
@[simp] theorem critExit_tail (b : Bool) (s : State) : (critExit b s).tail = s.tail := rfl
@[simp] theorem critExit_count (b : Bool) (s : State) : (critExit b s).count = s.count := rfl
@[simp] theorem critExit_ie (b : Bool) (s : State) : (critExit b s).ie = b := rfl
@[simp] theorem critExit_tickPend (b : Bool) (s : State) : (critExit b s).tickPend = s.tickPend := rfl
@[simp] theorem critExit_rxPend (b : Bool) (s : State) : (critExit b s).rxPend = s.rxPend := rfl
@[simp] theorem critExit_rxData (b : Bool) (s : State) : (critExit b s).rxData = s.rxData := rfl
@[simp] theorem critExit_boundTick (b : Bool) (s : State) : (critExit b s).boundTick = s.boundTick := rfl
@[simp] theorem critExit_boundRx (b : Bool) (s : State) : (critExit b s).boundRx = s.boundRx := rfl
@[simp] theorem critExit_envTimeInvalid (b : Bool) (s : State) : (critExit b s).envTimeInvalid = s.envTimeInvalid := rfl
@[simp] theorem critExit_envSrcOk (b : Bool) (s : State) : (critExit b s).envSrcOk = s.envSrcOk := rfl
@[simp] theorem critExit_resp (b : Bool) (s : State) : (critExit b s).resp = s.resp := rfl
@[simp] theorem critExit_micro (b : Bool) (s : State) : (critExit b s).micro = s.micro := rfl
@[simp] theorem critExit_script (b : Bool) (s : State) : (critExit b s).script = s.script := rfl
@[simp] theorem critExit_sp (b : Bool) (s : State) : (critExit b s).sp = s.sp := rfl
@[simp] theorem critExit_draws (b : Bool) (s : State) : (critExit b s).draws = s.draws := rfl

/-! ### saveIe -/

@[simp] theorem saveIe_params (s : State) : (saveIe s).params = s.params := rfl
@[simp] theorem saveIe_acc (s : State) : (saveIe s).acc = s.acc := rfl
@[simp] theorem saveIe_tickPeriodMs (s : State) : (saveIe s).tickPeriodMs = s.tickPeriodMs := rfl
@[simp] theorem saveIe_srcCnt (s : State) : (saveIe s).srcCnt = s.srcCnt := rfl
@[simp] theorem saveIe_srcEn (s : State) : (saveIe s).srcEn = s.srcEn := rfl
@[simp] theorem saveIe_fault (s : State) : (saveIe s).fault = s.fault := rfl
@[simp] theorem saveIe_buf (s : State) : (saveIe s).buf = s.buf := rfl
@[simp] theorem saveIe_head (s : State) : (saveIe s).head = s.head := rfl
@[simp] theorem saveIe_tail (s : State) : (saveIe s).tail = s.tail := rfl
@[simp] theorem saveIe_count (s : State) : (saveIe s).count = s.count := rfl
@[simp] theorem saveIe_ie (s : State) : (saveIe s).ie = false := rfl
@[simp] theorem saveIe_tickPend (s : State) : (saveIe s).tickPend = s.tickPend := rfl
@[simp] theorem saveIe_rxPend (s : State) : (saveIe s).rxPend = s.rxPend := rfl
@[simp] theorem saveIe_rxData (s : State) : (saveIe s).rxData = s.rxData := rfl
@[simp] theorem saveIe_boundTick (s : State) : (saveIe s).boundTick = s.boundTick := rfl
@[simp] theorem saveIe_boundRx (s : State) : (saveIe s).boundRx = s.boundRx := rfl
@[simp] theorem saveIe_envTimeInvalid (s : State) : (saveIe s).envTimeInvalid = s.envTimeInvalid := rfl
@[simp] theorem saveIe_envSrcOk (s : State) : (saveIe s).envSrcOk = s.envSrcOk := rfl
@[simp] theorem saveIe_resp (s : State) : (saveIe s).resp = s.resp := rfl
@[simp] theorem saveIe_micro (s : State) : (saveIe s).micro = { s.micro with saved := s.ie } := rfl
@[simp] theorem saveIe_script (s : State) : (saveIe s).script = s.script := rfl
@[simp] theorem saveIe_sp (s : State) : (saveIe s).sp = s.sp := rfl
@[simp] theorem saveIe_draws (s : State) : (saveIe s).draws = s.draws := rfl

/-! ### restoreIe -/

@[simp] theorem restoreIe_params (s : State) : (restoreIe s).params = s.params := rfl
@[simp] theorem restoreIe_acc (s : State) : (restoreIe s).acc = s.acc := rfl
@[simp] theorem restoreIe_tickPeriodMs (s : State) : (restoreIe s).tickPeriodMs = s.tickPeriodMs := rfl
@[simp] theorem restoreIe_srcCnt (s : State) : (restoreIe s).srcCnt = s.srcCnt := rfl
@[simp] theorem restoreIe_srcEn (s : State) : (restoreIe s).srcEn = s.srcEn := rfl
@[simp] theorem restoreIe_fault (s : State) : (restoreIe s).fault = s.fault := rfl
@[simp] theorem restoreIe_buf (s : State) : (restoreIe s).buf = s.buf := rfl
@[simp] theorem restoreIe_head (s : State) : (restoreIe s).head = s.head := rfl
@[simp] theorem restoreIe_tail (s : State) : (restoreIe s).tail = s.tail := rfl
@[simp] theorem restoreIe_count (s : State) : (restoreIe s).count = s.count := rfl
@[simp] theorem restoreIe_ie (s : State) : (restoreIe s).ie = s.micro.saved := rfl
@[simp] theorem restoreIe_tickPend (s : State) : (restoreIe s).tickPend = s.tickPend := rfl
@[simp] theorem restoreIe_rxPend (s : State) : (restoreIe s).rxPend = s.rxPend := rfl
@[simp] theorem restoreIe_rxData (s : State) : (restoreIe s).rxData = s.rxData := rfl
@[simp] theorem restoreIe_boundTick (s : State) : (restoreIe s).boundTick = s.boundTick := rfl
@[simp] theorem restoreIe_boundRx (s : State) : (restoreIe s).boundRx = s.boundRx := rfl
@[simp] theorem restoreIe_envTimeInvalid (s : State) : (restoreIe s).envTimeInvalid = s.envTimeInvalid := rfl
@[simp] theorem restoreIe_envSrcOk (s : State) : (restoreIe s).envSrcOk = s.envSrcOk := rfl
@[simp] theorem restoreIe_resp (s : State) : (restoreIe s).resp = s.resp := rfl
@[simp] theorem restoreIe_micro (s : State) : (restoreIe s).micro = s.micro := rfl
@[simp] theorem restoreIe_script (s : State) : (restoreIe s).script = s.script := rfl
@[simp] theorem restoreIe_sp (s : State) : (restoreIe s).sp = s.sp := rfl
@[simp] theorem restoreIe_draws (s : State) : (restoreIe s).draws = s.draws := rfl

/-! ### enterHandler -/

@[simp] theorem enterHandler_params (ch : Channel) (s : State) : (enterHandler ch s).params = s.params := rfl
@[simp] theorem enterHandler_acc (ch : Channel) (s : State) : (enterHandler ch s).acc = s.acc := rfl
@[simp] theorem enterHandler_tickPeriodMs (ch : Channel) (s : State) : (enterHandler ch s).tickPeriodMs = s.tickPeriodMs := rfl
@[simp] theorem enterHandler_srcCnt (ch : Channel) (s : State) : (enterHandler ch s).srcCnt = s.srcCnt := rfl
@[simp] theorem enterHandler_srcEn (ch : Channel) (s : State) : (enterHandler ch s).srcEn = s.srcEn := rfl
@[simp] theorem enterHandler_fault (ch : Channel) (s : State) : (enterHandler ch s).fault = s.fault := rfl
@[simp] theorem enterHandler_buf (ch : Channel) (s : State) : (enterHandler ch s).buf = s.buf := rfl
@[simp] theorem enterHandler_head (ch : Channel) (s : State) : (enterHandler ch s).head = s.head := rfl
@[simp] theorem enterHandler_tail (ch : Channel) (s : State) : (enterHandler ch s).tail = s.tail := rfl
@[simp] theorem enterHandler_count (ch : Channel) (s : State) : (enterHandler ch s).count = s.count := rfl
@[simp] theorem enterHandler_ie (ch : Channel) (s : State) : (enterHandler ch s).ie = s.ie := rfl
@[simp] theorem enterHandler_tickPend (ch : Channel) (s : State) : (enterHandler ch s).tickPend = s.tickPend := rfl
@[simp] theorem enterHandler_rxPend (ch : Channel) (s : State) : (enterHandler ch s).rxPend = s.rxPend := rfl
@[simp] theorem enterHandler_rxData (ch : Channel) (s : State) : (enterHandler ch s).rxData = s.rxData := rfl
@[simp] theorem enterHandler_boundTick (ch : Channel) (s : State) : (enterHandler ch s).boundTick = s.boundTick := rfl
@[simp] theorem enterHandler_boundRx (ch : Channel) (s : State) : (enterHandler ch s).boundRx = s.boundRx := rfl
@[simp] theorem enterHandler_envTimeInvalid (ch : Channel) (s : State) : (enterHandler ch s).envTimeInvalid = s.envTimeInvalid := rfl
@[simp] theorem enterHandler_envSrcOk (ch : Channel) (s : State) : (enterHandler ch s).envSrcOk = s.envSrcOk := rfl
@[simp] theorem enterHandler_resp (ch : Channel) (s : State) : (enterHandler ch s).resp = s.resp := rfl
@[simp] theorem enterHandler_micro (ch : Channel) (s : State) : (enterHandler ch s).micro = { s.micro with ctx := .isr ch 1 } := rfl
@[simp] theorem enterHandler_script (ch : Channel) (s : State) : (enterHandler ch s).script = s.script := rfl
@[simp] theorem enterHandler_sp (ch : Channel) (s : State) : (enterHandler ch s).sp = s.sp := rfl
@[simp] theorem enterHandler_draws (ch : Channel) (s : State) : (enterHandler ch s).draws = s.draws := rfl

/-! ### leaveHandler -/

@[simp] theorem leaveHandler_params (s : State) : (leaveHandler s).params = s.params := rfl
@[simp] theorem leaveHandler_acc (s : State) : (leaveHandler s).acc = s.acc := rfl
@[simp] theorem leaveHandler_tickPeriodMs (s : State) : (leaveHandler s).tickPeriodMs = s.tickPeriodMs := rfl
@[simp] theorem leaveHandler_srcCnt (s : State) : (leaveHandler s).srcCnt = s.srcCnt := rfl
@[simp] theorem leaveHandler_srcEn (s : State) : (leaveHandler s).srcEn = s.srcEn := rfl
@[simp] theorem leaveHandler_fault (s : State) : (leaveHandler s).fault = s.fault := rfl
@[simp] theorem leaveHandler_buf (s : State) : (leaveHandler s).buf = s.buf := rfl
@[simp] theorem leaveHandler_head (s : State) : (leaveHandler s).head = s.head := rfl
@[simp] theorem leaveHandler_tail (s : State) : (leaveHandler s).tail = s.tail := rfl
@[simp] theorem leaveHandler_count (s : State) : (leaveHandler s).count = s.count := rfl
@[simp] theorem leaveHandler_ie (s : State) : (leaveHandler s).ie = s.ie := rfl
@[simp] theorem leaveHandler_tickPend (s : State) : (leaveHandler s).tickPend = s.tickPend := rfl
@[simp] theorem leaveHandler_rxPend (s : State) : (leaveHandler s).rxPend = s.rxPend := rfl
@[simp] theorem leaveHandler_rxData (s : State) : (leaveHandler s).rxData = s.rxData := rfl
@[simp] theorem leaveHandler_boundTick (s : State) : (leaveHandler s).boundTick = s.boundTick := rfl
@[simp] theorem leaveHandler_boundRx (s : State) : (leaveHandler s).boundRx = s.boundRx := rfl
@[simp] theorem leaveHandler_envTimeInvalid (s : State) : (leaveHandler s).envTimeInvalid = s.envTimeInvalid := rfl
@[simp] theorem leaveHandler_envSrcOk (s : State) : (leaveHandler s).envSrcOk = s.envSrcOk := rfl
@[simp] theorem leaveHandler_resp (s : State) : (leaveHandler s).resp = s.resp := rfl
@[simp] theorem leaveHandler_micro (s : State) : (leaveHandler s).micro = { s.micro with ctx := .main } := rfl
@[simp] theorem leaveHandler_script (s : State) : (leaveHandler s).script = s.script := rfl
@[simp] theorem leaveHandler_sp (s : State) : (leaveHandler s).sp = s.sp := rfl
@[simp] theorem leaveHandler_draws (s : State) : (leaveHandler s).draws = s.draws := rfl

/-! ### raiseTick -/

@[simp] theorem raiseTick_params (s : State) : (raiseTick s).params = s.params := rfl
@[simp] theorem raiseTick_acc (s : State) : (raiseTick s).acc = s.acc := rfl
@[simp] theorem raiseTick_tickPeriodMs (s : State) : (raiseTick s).tickPeriodMs = s.tickPeriodMs := rfl
@[simp] theorem raiseTick_srcCnt (s : State) : (raiseTick s).srcCnt = s.srcCnt := rfl
@[simp] theorem raiseTick_srcEn (s : State) : (raiseTick s).srcEn = s.srcEn := rfl
@[simp] theorem raiseTick_fault (s : State) : (raiseTick s).fault = s.fault := rfl
@[simp] theorem raiseTick_buf (s : State) : (raiseTick s).buf = s.buf := rfl
@[simp] theorem raiseTick_head (s : State) : (raiseTick s).head = s.head := rfl
@[simp] theorem raiseTick_tail (s : State) : (raiseTick s).tail = s.tail := rfl
@[simp] theorem raiseTick_count (s : State) : (raiseTick s).count = s.count := rfl
@[simp] theorem raiseTick_ie (s : State) : (raiseTick s).ie = s.ie := rfl
@[simp] theorem raiseTick_tickPend (s : State) : (raiseTick s).tickPend = true := rfl
@[simp] theorem raiseTick_rxPend (s : State) : (raiseTick s).rxPend = s.rxPend := rfl
@[simp] theorem raiseTick_rxData (s : State) : (raiseTick s).rxData = s.rxData := rfl
@[simp] theorem raiseTick_boundTick (s : State) : (raiseTick s).boundTick = s.boundTick := rfl
@[simp] theorem raiseTick_boundRx (s : State) : (raiseTick s).boundRx = s.boundRx := rfl
@[simp] theorem raiseTick_envTimeInvalid (s : State) : (raiseTick s).envTimeInvalid = s.envTimeInvalid := rfl
@[simp] theorem raiseTick_envSrcOk (s : State) : (raiseTick s).envSrcOk = s.envSrcOk := rfl
@[simp] theorem raiseTick_resp (s : State) : (raiseTick s).resp = s.resp := rfl
@[simp] theorem raiseTick_micro (s : State) : (raiseTick s).micro = s.micro := rfl
@[simp] theorem raiseTick_script (s : State) : (raiseTick s).script = s.script := rfl
@[simp] theorem raiseTick_sp (s : State) : (raiseTick s).sp = s.sp := rfl
@[simp] theorem raiseTick_draws (s : State) : (raiseTick s).draws = s.draws := rfl

/-! ### clearTick -/

@[simp] theorem clearTick_params (s : State) : (clearTick s).params = s.params := rfl
@[simp] theorem clearTick_acc (s : State) : (clearTick s).acc = s.acc := rfl
@[simp] theorem clearTick_tickPeriodMs (s : State) : (clearTick s).tickPeriodMs = s.tickPeriodMs := rfl
@[simp] theorem clearTick_srcCnt (s : State) : (clearTick s).srcCnt = s.srcCnt := rfl
@[simp] theorem clearTick_srcEn (s : State) : (clearTick s).srcEn = s.srcEn := rfl
@[simp] theorem clearTick_fault (s : State) : (clearTick s).fault = s.fault := rfl
@[simp] theorem clearTick_buf (s : State) : (clearTick s).buf = s.buf := rfl
@[simp] theorem clearTick_head (s : State) : (clearTick s).head = s.head := rfl
@[simp] theorem clearTick_tail (s : State) : (clearTick s).tail = s.tail := rfl
@[simp] theorem clearTick_count (s : State) : (clearTick s).count = s.count := rfl
@[simp] theorem clearTick_ie (s : State) : (clearTick s).ie = s.ie := rfl
@[simp] theorem clearTick_tickPend (s : State) : (clearTick s).tickPend = false := rfl
@[simp] theorem clearTick_rxPend (s : State) : (clearTick s).rxPend = s.rxPend := rfl
@[simp] theorem clearTick_rxData (s : State) : (clearTick s).rxData = s.rxData := rfl
@[simp] theorem clearTick_boundTick (s : State) : (clearTick s).boundTick = s.boundTick := rfl
@[simp] theorem clearTick_boundRx (s : State) : (clearTick s).boundRx = s.boundRx := rfl
@[simp] theorem clearTick_envTimeInvalid (s : State) : (clearTick s).envTimeInvalid = s.envTimeInvalid := rfl
@[simp] theorem clearTick_envSrcOk (s : State) : (clearTick s).envSrcOk = s.envSrcOk := rfl
@[simp] theorem clearTick_resp (s : State) : (clearTick s).resp = s.resp := rfl
@[simp] theorem clearTick_micro (s : State) : (clearTick s).micro = s.micro := rfl
@[simp] theorem clearTick_script (s : State) : (clearTick s).script = s.script := rfl
@[simp] theorem clearTick_sp (s : State) : (clearTick s).sp = s.sp := rfl
@[simp] theorem clearTick_draws (s : State) : (clearTick s).draws = s.draws := rfl

/-! ### raiseRx -/

@[simp] theorem raiseRx_params (s : State) : (raiseRx s).params = s.params := rfl
@[simp] theorem raiseRx_acc (s : State) : (raiseRx s).acc = s.acc := rfl
@[simp] theorem raiseRx_tickPeriodMs (s : State) : (raiseRx s).tickPeriodMs = s.tickPeriodMs := rfl
@[simp] theorem raiseRx_srcCnt (s : State) : (raiseRx s).srcCnt = s.srcCnt := rfl
@[simp] theorem raiseRx_srcEn (s : State) : (raiseRx s).srcEn = s.srcEn := rfl
@[simp] theorem raiseRx_fault (s : State) : (raiseRx s).fault = s.fault := rfl
@[simp] theorem raiseRx_buf (s : State) : (raiseRx s).buf = s.buf := rfl
@[simp] theorem raiseRx_head (s : State) : (raiseRx s).head = s.head := rfl
@[simp] theorem raiseRx_tail (s : State) : (raiseRx s).tail = s.tail := rfl
@[simp] theorem raiseRx_count (s : State) : (raiseRx s).count = s.count := rfl
@[simp] theorem raiseRx_ie (s : State) : (raiseRx s).ie = s.ie := rfl
@[simp] theorem raiseRx_tickPend (s : State) : (raiseRx s).tickPend = s.tickPend := rfl
@[simp] theorem raiseRx_rxPend (s : State) : (raiseRx s).rxPend = true := rfl
@[simp] theorem raiseRx_rxData (s : State) : (raiseRx s).rxData = s.rxData := rfl
@[simp] theorem raiseRx_boundTick (s : State) : (raiseRx s).boundTick = s.boundTick := rfl
@[simp] theorem raiseRx_boundRx (s : State) : (raiseRx s).boundRx = s.boundRx := rfl
@[simp] theorem raiseRx_envTimeInvalid (s : State) : (raiseRx s).envTimeInvalid = s.envTimeInvalid := rfl
@[simp] theorem raiseRx_envSrcOk (s : State) : (raiseRx s).envSrcOk = s.envSrcOk := rfl
@[simp] theorem raiseRx_resp (s : State) : (raiseRx s).resp = s.resp := rfl
@[simp] theorem raiseRx_micro (s : State) : (raiseRx s).micro = s.micro := rfl
@[simp] theorem raiseRx_script (s : State) : (raiseRx s).script = s.script := rfl
@[simp] theorem raiseRx_sp (s : State) : (raiseRx s).sp = s.sp := rfl
@[simp] theorem raiseRx_draws (s : State) : (raiseRx s).draws = s.draws := rfl

/-! ### clearRx -/

@[simp] theorem clearRx_params (s : State) : (clearRx s).params = s.params := rfl
@[simp] theorem clearRx_acc (s : State) : (clearRx s).acc = s.acc := rfl
@[simp] theorem clearRx_tickPeriodMs (s : State) : (clearRx s).tickPeriodMs = s.tickPeriodMs := rfl
@[simp] theorem clearRx_srcCnt (s : State) : (clearRx s).srcCnt = s.srcCnt := rfl
@[simp] theorem clearRx_srcEn (s : State) : (clearRx s).srcEn = s.srcEn := rfl
@[simp] theorem clearRx_fault (s : State) : (clearRx s).fault = s.fault := rfl
@[simp] theorem clearRx_buf (s : State) : (clearRx s).buf = s.buf := rfl
@[simp] theorem clearRx_head (s : State) : (clearRx s).head = s.head := rfl
@[simp] theorem clearRx_tail (s : State) : (clearRx s).tail = s.tail := rfl
@[simp] theorem clearRx_count (s : State) : (clearRx s).count = s.count := rfl
@[simp] theorem clearRx_ie (s : State) : (clearRx s).ie = s.ie := rfl
@[simp] theorem clearRx_tickPend (s : State) : (clearRx s).tickPend = s.tickPend := rfl
@[simp] theorem clearRx_rxPend (s : State) : (clearRx s).rxPend = false := rfl
@[simp] theorem clearRx_rxData (s : State) : (clearRx s).rxData = s.rxData := rfl
@[simp] theorem clearRx_boundTick (s : State) : (clearRx s).boundTick = s.boundTick := rfl
@[simp] theorem clearRx_boundRx (s : State) : (clearRx s).boundRx = s.boundRx := rfl
@[simp] theorem clearRx_envTimeInvalid (s : State) : (clearRx s).envTimeInvalid = s.envTimeInvalid := rfl
@[simp] theorem clearRx_envSrcOk (s : State) : (clearRx s).envSrcOk = s.envSrcOk := rfl
@[simp] theorem clearRx_resp (s : State) : (clearRx s).resp = s.resp := rfl
@[simp] theorem clearRx_micro (s : State) : (clearRx s).micro = s.micro := rfl
@[simp] theorem clearRx_script (s : State) : (clearRx s).script = s.script := rfl
@[simp] theorem clearRx_sp (s : State) : (clearRx s).sp = s.sp := rfl
@[simp] theorem clearRx_draws (s : State) : (clearRx s).draws = s.draws := rfl

/-! ### setFault -/

@[simp] theorem setFault_params (b : Bool) (s : State) : (setFault b s).params = s.params := rfl
@[simp] theorem setFault_acc (b : Bool) (s : State) : (setFault b s).acc = s.acc := rfl
@[simp] theorem setFault_tickPeriodMs (b : Bool) (s : State) : (setFault b s).tickPeriodMs = s.tickPeriodMs := rfl
@[simp] theorem setFault_srcCnt (b : Bool) (s : State) : (setFault b s).srcCnt = s.srcCnt := rfl
@[simp] theorem setFault_srcEn (b : Bool) (s : State) : (setFault b s).srcEn = s.srcEn := rfl
@[simp] theorem setFault_fault (b : Bool) (s : State) : (setFault b s).fault = b := rfl
@[simp] theorem setFault_buf (b : Bool) (s : State) : (setFault b s).buf = s.buf := rfl
@[simp] theorem setFault_head (b : Bool) (s : State) : (setFault b s).head = s.head := rfl
@[simp] theorem setFault_tail (b : Bool) (s : State) : (setFault b s).tail = s.tail := rfl
@[simp] theorem setFault_count (b : Bool) (s : State) : (setFault b s).count = s.count := rfl
@[simp] theorem setFault_ie (b : Bool) (s : State) : (setFault b s).ie = s.ie := rfl
@[simp] theorem setFault_tickPend (b : Bool) (s : State) : (setFault b s).tickPend = s.tickPend := rfl
@[simp] theorem setFault_rxPend (b : Bool) (s : State) : (setFault b s).rxPend = s.rxPend := rfl
@[simp] theorem setFault_rxData (b : Bool) (s : State) : (setFault b s).rxData = s.rxData := rfl
@[simp] theorem setFault_boundTick (b : Bool) (s : State) : (setFault b s).boundTick = s.boundTick := rfl
@[simp] theorem setFault_boundRx (b : Bool) (s : State) : (setFault b s).boundRx = s.boundRx := rfl
@[simp] theorem setFault_envTimeInvalid (b : Bool) (s : State) : (setFault b s).envTimeInvalid = s.envTimeInvalid := rfl
@[simp] theorem setFault_envSrcOk (b : Bool) (s : State) : (setFault b s).envSrcOk = s.envSrcOk := rfl
@[simp] theorem setFault_resp (b : Bool) (s : State) : (setFault b s).resp = s.resp := rfl
@[simp] theorem setFault_micro (b : Bool) (s : State) : (setFault b s).micro = s.micro := rfl
@[simp] theorem setFault_script (b : Bool) (s : State) : (setFault b s).script = s.script := rfl
@[simp] theorem setFault_sp (b : Bool) (s : State) : (setFault b s).sp = s.sp := rfl
@[simp] theorem setFault_draws (b : Bool) (s : State) : (setFault b s).draws = s.draws := rfl

/-! ### sourceOff -/

@[simp] theorem sourceOff_params (s : State) : (sourceOff s).params = s.params := rfl
@[simp] theorem sourceOff_acc (s : State) : (sourceOff s).acc = s.acc := rfl
@[simp] theorem sourceOff_tickPeriodMs (s : State) : (sourceOff s).tickPeriodMs = 0#32 := rfl
@[simp] theorem sourceOff_srcCnt (s : State) : (sourceOff s).srcCnt = 0#16 := rfl
@[simp] theorem sourceOff_srcEn (s : State) : (sourceOff s).srcEn = false := rfl
@[simp] theorem sourceOff_fault (s : State) : (sourceOff s).fault = s.fault := rfl
@[simp] theorem sourceOff_buf (s : State) : (sourceOff s).buf = s.buf := rfl
@[simp] theorem sourceOff_head (s : State) : (sourceOff s).head = s.head := rfl
@[simp] theorem sourceOff_tail (s : State) : (sourceOff s).tail = s.tail := rfl
@[simp] theorem sourceOff_count (s : State) : (sourceOff s).count = s.count := rfl
@[simp] theorem sourceOff_ie (s : State) : (sourceOff s).ie = s.ie := rfl
@[simp] theorem sourceOff_tickPend (s : State) : (sourceOff s).tickPend = s.tickPend := rfl
@[simp] theorem sourceOff_rxPend (s : State) : (sourceOff s).rxPend = s.rxPend := rfl
@[simp] theorem sourceOff_rxData (s : State) : (sourceOff s).rxData = s.rxData := rfl
@[simp] theorem sourceOff_boundTick (s : State) : (sourceOff s).boundTick = s.boundTick := rfl
@[simp] theorem sourceOff_boundRx (s : State) : (sourceOff s).boundRx = s.boundRx := rfl
@[simp] theorem sourceOff_envTimeInvalid (s : State) : (sourceOff s).envTimeInvalid = s.envTimeInvalid := rfl
@[simp] theorem sourceOff_envSrcOk (s : State) : (sourceOff s).envSrcOk = s.envSrcOk := rfl
@[simp] theorem sourceOff_resp (s : State) : (sourceOff s).resp = s.resp := rfl
@[simp] theorem sourceOff_micro (s : State) : (sourceOff s).micro = s.micro := rfl
@[simp] theorem sourceOff_script (s : State) : (sourceOff s).script = s.script := rfl
@[simp] theorem sourceOff_sp (s : State) : (sourceOff s).sp = s.sp := rfl
@[simp] theorem sourceOff_draws (s : State) : (sourceOff s).draws = s.draws := rfl

/-! ### sourceOn -/

@[simp] theorem sourceOn_params (p : Half) (s : State) : (sourceOn p s).params = s.params := rfl
@[simp] theorem sourceOn_acc (p : Half) (s : State) : (sourceOn p s).acc = s.acc := rfl
@[simp] theorem sourceOn_tickPeriodMs (p : Half) (s : State) : (sourceOn p s).tickPeriodMs = periodMs s.params.fTick p := rfl
@[simp] theorem sourceOn_srcCnt (p : Half) (s : State) : (sourceOn p s).srcCnt = p := rfl
@[simp] theorem sourceOn_srcEn (p : Half) (s : State) : (sourceOn p s).srcEn = true := rfl
@[simp] theorem sourceOn_fault (p : Half) (s : State) : (sourceOn p s).fault = s.fault := rfl
@[simp] theorem sourceOn_buf (p : Half) (s : State) : (sourceOn p s).buf = s.buf := rfl
@[simp] theorem sourceOn_head (p : Half) (s : State) : (sourceOn p s).head = s.head := rfl
@[simp] theorem sourceOn_tail (p : Half) (s : State) : (sourceOn p s).tail = s.tail := rfl
@[simp] theorem sourceOn_count (p : Half) (s : State) : (sourceOn p s).count = s.count := rfl
@[simp] theorem sourceOn_ie (p : Half) (s : State) : (sourceOn p s).ie = s.ie := rfl
@[simp] theorem sourceOn_tickPend (p : Half) (s : State) : (sourceOn p s).tickPend = s.tickPend := rfl
@[simp] theorem sourceOn_rxPend (p : Half) (s : State) : (sourceOn p s).rxPend = s.rxPend := rfl
@[simp] theorem sourceOn_rxData (p : Half) (s : State) : (sourceOn p s).rxData = s.rxData := rfl
@[simp] theorem sourceOn_boundTick (p : Half) (s : State) : (sourceOn p s).boundTick = s.boundTick := rfl
@[simp] theorem sourceOn_boundRx (p : Half) (s : State) : (sourceOn p s).boundRx = s.boundRx := rfl
@[simp] theorem sourceOn_envTimeInvalid (p : Half) (s : State) : (sourceOn p s).envTimeInvalid = s.envTimeInvalid := rfl
@[simp] theorem sourceOn_envSrcOk (p : Half) (s : State) : (sourceOn p s).envSrcOk = s.envSrcOk := rfl
@[simp] theorem sourceOn_resp (p : Half) (s : State) : (sourceOn p s).resp = s.resp := rfl
@[simp] theorem sourceOn_micro (p : Half) (s : State) : (sourceOn p s).micro = s.micro := rfl
@[simp] theorem sourceOn_script (p : Half) (s : State) : (sourceOn p s).script = s.script := rfl
@[simp] theorem sourceOn_sp (p : Half) (s : State) : (sourceOn p s).sp = s.sp := rfl
@[simp] theorem sourceOn_draws (p : Half) (s : State) : (sourceOn p s).draws = s.draws := rfl

/-! ### bindHandler_tick -/

@[simp] theorem bindHandler_tick_params (s : State) : (bindHandler .tick s).params = s.params := rfl
@[simp] theorem bindHandler_tick_acc (s : State) : (bindHandler .tick s).acc = s.acc := rfl
@[simp] theorem bindHandler_tick_tickPeriodMs (s : State) : (bindHandler .tick s).tickPeriodMs = s.tickPeriodMs := rfl
@[simp] theorem bindHandler_tick_srcCnt (s : State) : (bindHandler .tick s).srcCnt = s.srcCnt := rfl
@[simp] theorem bindHandler_tick_srcEn (s : State) : (bindHandler .tick s).srcEn = s.srcEn := rfl
@[simp] theorem bindHandler_tick_fault (s : State) : (bindHandler .tick s).fault = s.fault := rfl
@[simp] theorem bindHandler_tick_buf (s : State) : (bindHandler .tick s).buf = s.buf := rfl
@[simp] theorem bindHandler_tick_head (s : State) : (bindHandler .tick s).head = s.head := rfl
@[simp] theorem bindHandler_tick_tail (s : State) : (bindHandler .tick s).tail = s.tail := rfl
@[simp] theorem bindHandler_tick_count (s : State) : (bindHandler .tick s).count = s.count := rfl
@[simp] theorem bindHandler_tick_ie (s : State) : (bindHandler .tick s).ie = s.ie := rfl
@[simp] theorem bindHandler_tick_tickPend (s : State) : (bindHandler .tick s).tickPend = s.tickPend := rfl
@[simp] theorem bindHandler_tick_rxPend (s : State) : (bindHandler .tick s).rxPend = s.rxPend := rfl
@[simp] theorem bindHandler_tick_rxData (s : State) : (bindHandler .tick s).rxData = s.rxData := rfl
@[simp] theorem bindHandler_tick_boundTick (s : State) : (bindHandler .tick s).boundTick = true := rfl
@[simp] theorem bindHandler_tick_boundRx (s : State) : (bindHandler .tick s).boundRx = s.boundRx := rfl
@[simp] theorem bindHandler_tick_envTimeInvalid (s : State) : (bindHandler .tick s).envTimeInvalid = s.envTimeInvalid := rfl
@[simp] theorem bindHandler_tick_envSrcOk (s : State) : (bindHandler .tick s).envSrcOk = s.envSrcOk := rfl
@[simp] theorem bindHandler_tick_resp (s : State) : (bindHandler .tick s).resp = s.resp := rfl
@[simp] theorem bindHandler_tick_micro (s : State) : (bindHandler .tick s).micro = s.micro := rfl
@[simp] theorem bindHandler_tick_script (s : State) : (bindHandler .tick s).script = s.script := rfl
@[simp] theorem bindHandler_tick_sp (s : State) : (bindHandler .tick s).sp = s.sp := rfl
@[simp] theorem bindHandler_tick_draws (s : State) : (bindHandler .tick s).draws = s.draws := rfl

/-! ### bindHandler_rx -/

@[simp] theorem bindHandler_rx_params (s : State) : (bindHandler .rx s).params = s.params := rfl
@[simp] theorem bindHandler_rx_acc (s : State) : (bindHandler .rx s).acc = s.acc := rfl
@[simp] theorem bindHandler_rx_tickPeriodMs (s : State) : (bindHandler .rx s).tickPeriodMs = s.tickPeriodMs := rfl
@[simp] theorem bindHandler_rx_srcCnt (s : State) : (bindHandler .rx s).srcCnt = s.srcCnt := rfl
@[simp] theorem bindHandler_rx_srcEn (s : State) : (bindHandler .rx s).srcEn = s.srcEn := rfl
@[simp] theorem bindHandler_rx_fault (s : State) : (bindHandler .rx s).fault = s.fault := rfl
@[simp] theorem bindHandler_rx_buf (s : State) : (bindHandler .rx s).buf = s.buf := rfl
@[simp] theorem bindHandler_rx_head (s : State) : (bindHandler .rx s).head = s.head := rfl
@[simp] theorem bindHandler_rx_tail (s : State) : (bindHandler .rx s).tail = s.tail := rfl
@[simp] theorem bindHandler_rx_count (s : State) : (bindHandler .rx s).count = s.count := rfl
@[simp] theorem bindHandler_rx_ie (s : State) : (bindHandler .rx s).ie = s.ie := rfl
@[simp] theorem bindHandler_rx_tickPend (s : State) : (bindHandler .rx s).tickPend = s.tickPend := rfl
@[simp] theorem bindHandler_rx_rxPend (s : State) : (bindHandler .rx s).rxPend = s.rxPend := rfl
@[simp] theorem bindHandler_rx_rxData (s : State) : (bindHandler .rx s).rxData = s.rxData := rfl
@[simp] theorem bindHandler_rx_boundTick (s : State) : (bindHandler .rx s).boundTick = s.boundTick := rfl
@[simp] theorem bindHandler_rx_boundRx (s : State) : (bindHandler .rx s).boundRx = true := rfl
@[simp] theorem bindHandler_rx_envTimeInvalid (s : State) : (bindHandler .rx s).envTimeInvalid = s.envTimeInvalid := rfl
@[simp] theorem bindHandler_rx_envSrcOk (s : State) : (bindHandler .rx s).envSrcOk = s.envSrcOk := rfl
@[simp] theorem bindHandler_rx_resp (s : State) : (bindHandler .rx s).resp = s.resp := rfl
@[simp] theorem bindHandler_rx_micro (s : State) : (bindHandler .rx s).micro = s.micro := rfl
@[simp] theorem bindHandler_rx_script (s : State) : (bindHandler .rx s).script = s.script := rfl
@[simp] theorem bindHandler_rx_sp (s : State) : (bindHandler .rx s).sp = s.sp := rfl
@[simp] theorem bindHandler_rx_draws (s : State) : (bindHandler .rx s).draws = s.draws := rfl

/-! ### the result forms of R64 are responses -/

@[simp] theorem critEnter_fst (s : State) : (critEnter s).1 = s.ie := rfl
@[simp] theorem respondBool_eq (b : Bool) (s : State) :
    respondBool b s = respond .ok (BitVec.ofNat 32 (bitNat b)) s := rfl
@[simp] theorem respondWord_eq (v : Word) (s : State) : respondWord v s = respond .ok v s := rfl
@[simp] theorem respondElem_eq (v : Elem) (s : State) : respondElem v s = respond .ok (v.setWidth 32) s := rfl
@[simp] theorem respondEmpty_eq (s : State) : respondEmpty s = respond .empty 0#32 s := rfl
@[simp] theorem respondVoid_eq (s : State) : respondVoid s = respond .ok 0#32 s := rfl
@[simp] theorem respondIllegal_eq (s : State) : respondIllegal s = respond .err 0#32 s := rfl

/-! ### overrun -/

@[simp] theorem overrun_params (old : Bool) (d : Elem) (s : State) : (overrun old d s).params = s.params := rfl
@[simp] theorem overrun_acc (old : Bool) (d : Elem) (s : State) : (overrun old d s).acc = s.acc := rfl
@[simp] theorem overrun_tickPeriodMs (old : Bool) (d : Elem) (s : State) : (overrun old d s).tickPeriodMs = s.tickPeriodMs := rfl
@[simp] theorem overrun_srcCnt (old : Bool) (d : Elem) (s : State) : (overrun old d s).srcCnt = s.srcCnt := rfl
@[simp] theorem overrun_srcEn (old : Bool) (d : Elem) (s : State) : (overrun old d s).srcEn = s.srcEn := rfl
@[simp] theorem overrun_fault (old : Bool) (d : Elem) (s : State) : (overrun old d s).fault = s.fault := rfl
@[simp] theorem overrun_buf (old : Bool) (d : Elem) (s : State) : (overrun old d s).buf = s.buf := rfl
@[simp] theorem overrun_head (old : Bool) (d : Elem) (s : State) : (overrun old d s).head = s.head := rfl
@[simp] theorem overrun_tail (old : Bool) (d : Elem) (s : State) : (overrun old d s).tail = s.tail := rfl
@[simp] theorem overrun_count (old : Bool) (d : Elem) (s : State) : (overrun old d s).count = s.count := rfl
@[simp] theorem overrun_ie (old : Bool) (d : Elem) (s : State) : (overrun old d s).ie = s.ie := rfl
@[simp] theorem overrun_tickPend (old : Bool) (d : Elem) (s : State) : (overrun old d s).tickPend = s.tickPend := rfl
@[simp] theorem overrun_rxPend (old : Bool) (d : Elem) (s : State) : (overrun old d s).rxPend = s.rxPend := rfl
@[simp] theorem overrun_boundTick (old : Bool) (d : Elem) (s : State) : (overrun old d s).boundTick = s.boundTick := rfl
@[simp] theorem overrun_boundRx (old : Bool) (d : Elem) (s : State) : (overrun old d s).boundRx = s.boundRx := rfl
@[simp] theorem overrun_envTimeInvalid (old : Bool) (d : Elem) (s : State) : (overrun old d s).envTimeInvalid = s.envTimeInvalid := rfl
@[simp] theorem overrun_envSrcOk (old : Bool) (d : Elem) (s : State) : (overrun old d s).envSrcOk = s.envSrcOk := rfl
@[simp] theorem overrun_resp (old : Bool) (d : Elem) (s : State) : (overrun old d s).resp = s.resp := rfl
@[simp] theorem overrun_micro (old : Bool) (d : Elem) (s : State) : (overrun old d s).micro = s.micro := rfl
@[simp] theorem overrun_script (old : Bool) (d : Elem) (s : State) : (overrun old d s).script = s.script := rfl
@[simp] theorem overrun_sp (old : Bool) (d : Elem) (s : State) : (overrun old d s).sp = s.sp := rfl
@[simp] theorem overrun_draws (old : Bool) (d : Elem) (s : State) : (overrun old d s).draws = s.draws + 1 := rfl
@[simp] theorem overrun_rxData (old : Bool) (d : Elem) (s : State) :
    (overrun old d s).rxData = if old then s.rxData else fitElem s.params.wT d := rfl

end Sys2Proof.Machine
end

