-- ==== Sys2Proof/Laws/Exec.lean ====
section
/-! SUPPORT. What each meaning does, said once: the shared operations first (dispatch, push, buffer access), then every
operation's next state in closed form, so that later proofs cite these and unfold no meaning. -/

namespace Sys2Proof.Machine

/-! ## Shared operations -/

theorem readBuf_of_lt {s : State} {i : Nat} (h : i < s.params.n) : readBuf s i = .ok (elemAt s i) := by
  simp [readBuf, h]

theorem readBuf_ok_iff {s : State} {i : Nat} {v : Elem} :
    readBuf s i = .ok v ↔ i < s.params.n ∧ v = elemAt s i := by
  unfold readBuf
  split
  · simp [*, eq_comm]
  · simp [*]

theorem writeBuf_ok_iff {s t : State} {i : Nat} {v : Elem} :
    writeBuf s i v = .ok t ↔ i < s.params.n ∧ t = { s with buf := s.buf.write i (fitElem s.params.wT v) } := by
  unfold writeBuf
  split
  · rename_i h
    exact ⟨fun e => ⟨h, (Except.ok.inj e).symm⟩, fun e => congrArg Except.ok e.2.symm⟩
  · rename_i h
    exact ⟨fun e => (by cases e), fun e => absurd e.1 h⟩

/-- An element reads the same in two states with the same storage and parameters. -/
theorem elemAt_congr {s t : State} (hb : t.buf = s.buf) (hp : t.params = s.params) (i : Nat) :
    elemAt t i = elemAt s i := by
  simp [elemAt, hb, hp]

/-- The element just written is the one read, cut to `W_T` bits (R57). -/
theorem elemAt_write_same (s : State) (i : Nat) (v : Elem) :
    elemAt { s with buf := s.buf.write i (fitElem s.params.wT v) } i = fitElem s.params.wT v := by
  simp [elemAt]

/-- A write leaves every other element as it was (R57). -/
theorem elemAt_write_other (s : State) {i a : Nat} (v : Elem) (h : a ≠ i) :
    elemAt { s with buf := s.buf.write i v } a = elemAt s a := by
  simp [elemAt, Memory.read?_write_other _ _ h]

/-- A dispatch happens iff its channel is dispatchable and the handler's body runs (R134, R135). -/
theorem dispatch_next_iff {ch : Channel} {body : State → Except Fault State} {s t : State} :
    dispatch ch body s = .next t ↔
      dispatchable ch s = true ∧ ∃ u, body (enterHandler ch (silent s)) = .ok u ∧ t = leaveHandler u := by
  unfold dispatch
  split
  · rename_i h
    split
    · rename_i u hu
      exact ⟨fun e => ⟨h, u, hu, (Host.Outcome.next.inj e).symm⟩, fun ⟨_, v, hv, e⟩ => by
        rw [e, Except.ok.inj (hu.symm.trans hv)]⟩
    · rename_i f hf
      exact ⟨fun e => (by cases e), fun ⟨_, v, hv, _⟩ => (by cases hf.symm.trans hv)⟩
  · rename_i h
    exact ⟨fun e => (by cases e), fun e => absurd e.1 h⟩

/-- The dispatch condition spelled out (R134). -/
theorem dispatchable_iff {ch : Channel} {s : State} :
    dispatchable ch s = true ↔ s.ie = true ∧ bound s ch = true ∧ pending s ch = true ∧ s.micro.ctx = .main := by
  simp [dispatchable, and_assoc]

/-- A dispatch that is not enabled cannot happen (R69). -/
theorem dispatch_of_not {ch : Channel} {body : State → Except Fault State} {s : State}
    (h : dispatchable ch s = false) : dispatch ch body s = .fault (.dispatchNotEnabled ch) := by
  simp [dispatch, h]

/-- The two outcomes of a push (R82). -/
theorem tryPush_ok_iff {v : Elem} {s t : State} {ok : Bool} :
    tryPush v s = .ok (ok, t) ↔
      (s.count.toNat = s.params.n ∧ ok = false ∧ t = s) ∨
      (s.count.toNat ≠ s.params.n ∧ s.head.toNat < s.params.n ∧ ok = true ∧
        t = { s with
          buf := s.buf.write s.head.toNat (fitElem s.params.wT v)
          head := nextIndex s.params.n s.head
          count := s.count + 1#8 }) := by
  unfold tryPush writeBuf
  split
  · simp_all [eq_comm]
  · split
    · rename_i h1 _ _ h2
      split at h2
      · cases h2; simp_all [eq_comm]
      · cases h2
    · rename_i h2
      split at h2
      · cases h2
      · simp_all

/-! ## The handlers -/

/-- Leaving a handler after entering it from the main context: a dispatch changes no Layer B state (R136, R137). -/
theorem setCtx_main {m : Micro} (h : m.ctx = .main) : { m with ctx := Ctx.main } = m := by
  cases m; cases h; rfl

/-- The next state of `ISR.TICK` (R108). -/
theorem execIsrTick_next_iff {s t : State} :
    execIsrTick s = .next t ↔ dispatchable .tick s = true ∧
      t = { s with acc := accumulate s.acc s.tickPeriodMs, tickPend := false, resp := none } := by
  unfold execIsrTick
  rw [dispatch_next_iff]
  refine and_congr_right fun h => ?_
  have hc := (dispatchable_iff.mp h).2.2.2
  simp only [tickHandler, Except.ok.injEq, exists_eq_left', leaveHandler, clearTick, enterHandler, silent]
  rw [setCtx_main hc]

/-- The next state of `ISR.RX` (R93): the datum dropped, or pushed at `HEAD`. -/
theorem execIsrRx_next_iff {s t : State} :
    execIsrRx s = .next t ↔ dispatchable .rx s = true ∧
      ((s.count.toNat = s.params.n ∧ t = { s with rxPend := false, resp := none }) ∨
       (s.count.toNat ≠ s.params.n ∧ s.head.toNat < s.params.n ∧
        t = { s with
          buf := s.buf.write s.head.toNat (fitElem s.params.wT s.rxData)
          head := nextIndex s.params.n s.head
          count := s.count + 1#8
          rxPend := false
          resp := none })) := by
  unfold execIsrRx
  rw [dispatch_next_iff]
  refine and_congr_right fun h => ?_
  have hc := (dispatchable_iff.mp h).2.2.2
  constructor
  · rintro ⟨u, hu, rfl⟩
    unfold rxHandler at hu
    split at hu
    · rename_i ok v hv
      cases hu
      rcases tryPush_ok_iff.mp hv with ⟨h1, -, rfl⟩ | ⟨h1, h2, -, rfl⟩
      · exact .inl ⟨h1, by simp only [leaveHandler, clearRx, enterHandler, silent]; rw [setCtx_main hc]⟩
      · exact .inr ⟨h1, h2, by simp only [leaveHandler, clearRx, enterHandler, silent]; rw [setCtx_main hc]⟩
    · cases hu
  · rintro (⟨h1, rfl⟩ | ⟨h1, h2, rfl⟩)
    · have hp := tryPush_ok_iff (v := s.rxData) (s := enterHandler .rx (silent s)) |>.mpr (.inl ⟨h1, rfl, rfl⟩)
      refine ⟨clearRx (enterHandler .rx (silent s)), ?_, ?_⟩
      · simp only [rxHandler, enterHandler_rxData, silent_rxData, hp]
      · simp only [leaveHandler, clearRx, enterHandler, silent]; rw [setCtx_main hc]
    · have hp := tryPush_ok_iff (v := s.rxData) (s := enterHandler .rx (silent s)) |>.mpr (.inr ⟨h1, h2, rfl, rfl⟩)
      refine ⟨_, by simp only [rxHandler, enterHandler_rxData, silent_rxData, hp]; rfl, ?_⟩
      simp only [leaveHandler, clearRx, enterHandler, silent]; rw [setCtx_main hc]

/-! ## The ring commands -/

/-- The outcome of `RB.POP` (R83). -/
theorem execRbPop_eq (s : State) : execRbPop s =
    if s.count = 0#8 then .next { s with resp := some ⟨.empty, 0#32⟩ }
    else if s.tail.toNat < s.params.n then
      .next { s with
        tail := nextIndex s.params.n s.tail
        count := s.count - 1#8
        resp := some ⟨.ok, (elemAt s s.tail.toNat).setWidth 32⟩ }
    else .fault (.noSuchElement s.tail.toNat) := by
  by_cases h : s.count = 0#8
  · simp only [execRbPop, critEnter, h, if_true]; rfl
  · by_cases ht : s.tail.toNat < s.params.n
    · simp only [execRbPop, critEnter, readBuf, h, ht, if_true, if_false]; rfl
    · simp only [execRbPop, critEnter, readBuf, h, ht, if_false]

/-- The outcome of `RB.PEEK` (R84). -/
theorem execRbPeek_eq (s : State) : execRbPeek s =
    if s.count = 0#8 then .next { s with resp := some ⟨.empty, 0#32⟩ }
    else if s.tail.toNat < s.params.n then
      .next { s with resp := some ⟨.ok, (elemAt s s.tail.toNat).setWidth 32⟩ }
    else .fault (.noSuchElement s.tail.toNat) := by
  by_cases h : s.count = 0#8
  · simp only [execRbPeek, critEnter, h, if_true]; rfl
  · by_cases ht : s.tail.toNat < s.params.n
    · simp only [execRbPeek, critEnter, readBuf, h, ht, if_true, if_false]; rfl
    · simp only [execRbPeek, critEnter, readBuf, h, ht, if_false]

/-! ## The clock commands -/

/-- The outcome of `CLK.SETPERIOD p` (R103). -/
theorem execClkSetPeriod_eq (p : Half) (s : State) : execClkSetPeriod p s =
    if p = 0#16 then
      .next { s with srcEn := false, srcCnt := 0#16, tickPeriodMs := 0#32, resp := some ⟨.ok, 1#32⟩ }
    else if s.envSrcOk = false then
      .next { s with srcEn := false, srcCnt := 0#16, tickPeriodMs := 0#32, resp := some ⟨.ok, 0#32⟩ }
    else
      .next { s with
        srcEn := true, srcCnt := p, tickPeriodMs := periodMs s.params.fTick p, resp := some ⟨.ok, 1#32⟩ } := by
  by_cases hp : p = 0#16
  · simp only [execClkSetPeriod, critEnter, hp, if_true]; rfl
  · by_cases ho : s.envSrcOk = false
    · simp only [execClkSetPeriod, critEnter, hp, ho, if_true, if_false]; rfl
    · simp only [execClkSetPeriod, critEnter, hp, ho, if_false]; rfl

/-- The period register holds the exact quotient: it fits (R101). -/
theorem periodMs_toNat (f : Nat) (p : Half) : (periodMs f p).toNat = p.toNat * 1000 / f := by
  have hp := p.isLt
  have : p.toNat * 1000 / f ≤ p.toNat * 1000 := Nat.div_le_self _ _
  simp only [periodMs, BitVec.toNat_ofNat]
  exact Nat.mod_eq_of_lt (by omega)

/-- The accumulator wraps modulo 2^32 (R100). -/
theorem accumulate_toNat (a b : Word) : (accumulate a b).toNat = (a.toNat + b.toNat) % 2 ^ 32 := by
  simp [accumulate]

/-- Accumulation is the addition of 32-bit words (R100). -/
theorem accumulate_eq_add (a b : Word) : accumulate a b = a + b := by
  apply BitVec.eq_of_toNat_eq; simp [accumulate_toNat]

/-! ## The events -/

/-- No handler in progress, so none with its datum stored: every Layer A state (R136). -/
theorem rxStored_of_main {s : State} (h : s.micro.ctx = .main) : rxStored s = false := by
  simp [rxStored, h]

@[simp] theorem rxStored_silent (s : State) : rxStored (silent s) = rxStored s := rfl

/-- The next state of `EV.RX d` without an overrun (R133). -/
theorem execEvRx_of_free {d : Elem} {s : State} (h : s.rxPend = false) :
    execEvRx d s = .next { s with rxPend := true, rxData := fitElem s.params.wT d, resp := none } := by
  simp [execEvRx, receive, raiseRx, silent, h]

/-- The next state of `EV.RX d` on an overrun (R133, log entries 8 and 23). -/
theorem execEvRx_of_waiting {d : Elem} {s : State} (h : s.rxPend = true) :
    execEvRx d s =
      .next { s with
        rxPend := true
        rxData := if rxStored s || Config.overrunKeepsOld s.draws then s.rxData else fitElem s.params.wT d
        draws := s.draws + 1
        resp := none } := by
  simp [execEvRx, receive, overrun, raiseRx, silent, h, rxStored]

end Sys2Proof.Machine
end

