-- ==== Sys2Proof/Laws/Effect.lean ====
section
/-! SUPPORT. What a step of Layer A can do, said once: `Effect s i t` lists every way `exec i s` answers `next t`, guards
included. Later proofs take an `exec` apart with `cases (exec_next_iff.mp h)`. -/

namespace Sys2Proof.Machine

/-- Every next state of every operation. -/
inductive Effect (s : State) : Instr → State → Prop where
  | critEnter : Effect s .critEnter { s with ie := false, resp := some ⟨.ok, BitVec.ofNat 32 (bitNat s.ie)⟩ }
  | critExit (token : Bool) : Effect s (.critExit token) { s with ie := token, resp := some ⟨.ok, 0#32⟩ }
  | bindTick : Effect s (.irqBind .tick) { s with boundTick := true, resp := some ⟨.ok, 0#32⟩ }
  | bindRx : Effect s (.irqBind .rx) { s with boundRx := true, resp := some ⟨.ok, 0#32⟩ }
  | popEmpty (empty : s.count = 0#8) : Effect s .rbPop { s with resp := some ⟨.empty, 0#32⟩ }
  | pop (occupied : s.count ≠ 0#8) (index : s.tail.toNat < s.params.n) :
      Effect s .rbPop { s with
        tail := nextIndex s.params.n s.tail
        count := s.count - 1#8
        resp := some ⟨.ok, (elemAt s s.tail.toNat).setWidth 32⟩ }
  | peekEmpty (empty : s.count = 0#8) : Effect s .rbPeek { s with resp := some ⟨.empty, 0#32⟩ }
  | peek (occupied : s.count ≠ 0#8) (index : s.tail.toNat < s.params.n) :
      Effect s .rbPeek { s with resp := some ⟨.ok, (elemAt s s.tail.toNat).setWidth 32⟩ }
  | isEmpty : Effect s .rbIsEmpty
      { s with resp := some ⟨.ok, BitVec.ofNat 32 (bitNat (decide (s.count = 0#8)))⟩ }
  | isFull : Effect s .rbIsFull
      { s with resp := some ⟨.ok, BitVec.ofNat 32 (bitNat (decide (s.count.toNat = s.params.n)))⟩ }
  | avail : Effect s .rbAvail
      { s with resp := some ⟨.ok, BitVec.ofNat 32 (bitNat (decide (0 < s.count.toNat)))⟩ }
  | init : Effect s .clkInit
      { s with fault := s.envTimeInvalid, resp := some ⟨.ok, BitVec.ofNat 32 (bitNat s.envTimeInvalid)⟩ }
  | setPeriodOff : Effect s (.clkSetPeriod 0#16)
      { s with srcEn := false, srcCnt := 0#16, tickPeriodMs := 0#32, resp := some ⟨.ok, 1#32⟩ }
  | setPeriodRefused (p : Half) (some_ : p ≠ 0#16) (refused : s.envSrcOk = false) : Effect s (.clkSetPeriod p)
      { s with srcEn := false, srcCnt := 0#16, tickPeriodMs := 0#32, resp := some ⟨.ok, 0#32⟩ }
  | setPeriod (p : Half) (some_ : p ≠ 0#16) (accepted : s.envSrcOk = true) : Effect s (.clkSetPeriod p)
      { s with
        srcEn := true, srcCnt := p, tickPeriodMs := periodMs s.params.fTick p, resp := some ⟨.ok, 1#32⟩ }
  | stop : Effect s .clkStop
      { s with srcEn := false, srcCnt := 0#16, tickPeriodMs := 0#32, resp := some ⟨.ok, 1#32⟩ }
  | getMs : Effect s .clkGetMs { s with resp := some ⟨.ok, s.acc⟩ }
  | status : Effect s .clkStatus { s with resp := some ⟨.ok, statusWord s.srcEn s.fault⟩ }
  | getPeriod : Effect s .clkGetPeriod { s with resp := some ⟨.ok, s.tickPeriodMs⟩ }
  | tickEvent (enabled : s.srcEn = true) : Effect s .evTick { s with tickPend := true, resp := none }
  | rxEvent (d : Elem) (free : s.rxPend = false) : Effect s (.evRx d)
      { s with rxPend := true, rxData := fitElem s.params.wT d, resp := none }
  | rxOverrun (d : Elem) (waiting : s.rxPend = true) : Effect s (.evRx d)
      { s with
        rxPend := true
        rxData := if rxStored s || Config.overrunKeepsOld s.draws then s.rxData else fitElem s.params.wT d
        draws := s.draws + 1
        resp := none }
  | envEvent (ok ti : Bool) : Effect s (.evEnv ok ti) { s with envTimeInvalid := ti, envSrcOk := ok, resp := none }
  | tick (enabled : dispatchable .tick s = true) : Effect s .isrTick
      { s with acc := accumulate s.acc s.tickPeriodMs, tickPend := false, resp := none }
  | rxDrop (enabled : dispatchable .rx s = true) (full : s.count.toNat = s.params.n) : Effect s .isrRx
      { s with rxPend := false, resp := none }
  | rxPush (enabled : dispatchable .rx s = true) (room : s.count.toNat ≠ s.params.n)
      (index : s.head.toNat < s.params.n) : Effect s .isrRx
      { s with
        buf := s.buf.write s.head.toNat (fitElem s.params.wT s.rxData)
        head := nextIndex s.params.n s.head
        count := s.count + 1#8
        rxPend := false
        resp := none }

/-- An operation that answers a next state has one of the listed effects. -/
theorem Effect.of_exec {i : Instr} {s t : State} (h : exec i s = .next t) : Effect s i t := by
  cases i with
  | critEnter => cases h; exact .critEnter
  | critExit token => cases h; exact .critExit token
  | irqBind ch =>
    cases ch with
    | tick => cases h; exact .bindTick
    | rx => cases h; exact .bindRx
  | rbPop =>
    simp only [exec, execRbPop_eq] at h
    split at h
    · cases h; exact .popEmpty ‹_›
    · split at h <;> cases h
      exact .pop ‹_› ‹_›
  | rbPeek =>
    simp only [exec, execRbPeek_eq] at h
    split at h
    · cases h; exact .peekEmpty ‹_›
    · split at h <;> cases h
      exact .peek ‹_› ‹_›
  | rbIsEmpty => cases h; exact .isEmpty
  | rbIsFull => cases h; exact .isFull
  | rbAvail => cases h; exact .avail
  | clkInit => cases h; exact .init
  | clkSetPeriod p =>
    simp only [exec, execClkSetPeriod_eq] at h
    split at h
    · subst p; cases h; exact .setPeriodOff
    · split at h <;> cases h
      · exact .setPeriodRefused p ‹_› ‹_›
      · exact .setPeriod p ‹_› (by simpa using ‹¬ _ = false›)
  | clkStop => cases h; exact .stop
  | clkGetMs => cases h; exact .getMs
  | clkStatus => cases h; exact .status
  | clkGetPeriod => cases h; exact .getPeriod
  | evTick =>
    simp only [exec, execEvTick] at h
    split at h <;> cases h
    exact .tickEvent ‹_›
  | evRx d =>
    cases hp : s.rxPend with
    | false => cases (execEvRx_of_free hp).symm.trans h; exact .rxEvent d hp
    | true => cases (execEvRx_of_waiting hp).symm.trans h; exact .rxOverrun d hp
  | evEnv ok ti => cases h; exact .envEvent ok ti
  | isrTick =>
    obtain ⟨hd, rfl⟩ := execIsrTick_next_iff.mp h
    exact .tick hd
  | isrRx =>
    obtain ⟨hd, ⟨hf, rfl⟩ | ⟨hf, hi, rfl⟩⟩ := execIsrRx_next_iff.mp h
    · exact .rxDrop hd hf
    · exact .rxPush hd hf hi

/-- Each listed effect is one `exec` has. -/
theorem Effect.exec_eq {i : Instr} {s t : State} (h : Effect s i t) : exec i s = .next t := by
  cases h with
  | popEmpty h => simp [exec, execRbPop_eq, h]
  | pop h ht => simp [exec, execRbPop_eq, h, ht]
  | peekEmpty h => simp [exec, execRbPeek_eq, h]
  | peek h ht => simp [exec, execRbPeek_eq, h, ht]
  | setPeriodRefused p h hr => simp [exec, execClkSetPeriod_eq, h, hr]
  | setPeriod p h ha => simp [exec, execClkSetPeriod_eq, h, ha]
  | tickEvent h => simp [exec, execEvTick, h, raiseTick, silent]
  | rxEvent d h => exact execEvRx_of_free h
  | rxOverrun d h => exact execEvRx_of_waiting h
  | tick h => exact execIsrTick_next_iff.mpr ⟨h, rfl⟩
  | rxDrop h hf => exact execIsrRx_next_iff.mpr ⟨h, .inl ⟨hf, rfl⟩⟩
  | rxPush h hf hi => exact execIsrRx_next_iff.mpr ⟨h, .inr ⟨hf, hi, rfl⟩⟩
  | _ => rfl

/-- What a step of Layer A can do, in both directions. -/
theorem exec_next_iff {i : Instr} {s t : State} : exec i s = .next t ↔ Effect s i t :=
  ⟨Effect.of_exec, Effect.exec_eq⟩

end Sys2Proof.Machine
end

