-- ==== Sys2Proof/Laws/Lanes.lean ====
section
/-! SUPPORT. Lanes (R9, R41): a lane written is the lane read, the others stay, and the lanes of a register determine it. -/

namespace Sys2Proof.Machine

/-! The lane numbers of each data path (R7) and the accesses `SRC_CNT` takes (R44). -/

@[simp] theorem lanes_w8 : DataPath.lanes .w8 = 4 := rfl
@[simp] theorem lanes_w16 : DataPath.lanes .w16 = 2 := rfl
@[simp] theorem lanes_w32 : DataPath.lanes .w32 = 1 := rfl
@[simp] theorem cntLanes_w8 : DataPath.cntLanes .w8 = 2 := rfl
@[simp] theorem cntLanes_w16 : DataPath.cntLanes .w16 = 1 := rfl
@[simp] theorem cntLanes_w32 : DataPath.cntLanes .w32 = 1 := rfl

theorem lane_lt (d : DataPath) (x i : Nat) : lane d x i < 2 ^ d.bits := Nat.mod_lt _ (Nat.two_pow_pos _)

/-- After one lane of a 32-bit register is written, that lane holds the value and every other what it held. -/
theorem lane_setLane32 (d : DataPath) (x : Word) {i j : Nat} (v : Nat) (hi : i < d.lanes) (hj : j < d.lanes) :
    lane d (setLane32 d x i v).toNat j = if j = i then v % 2 ^ d.bits else lane d x.toNat j := by
  have hx := x.isLt
  cases d with
  | w32 =>
    simp only [lanes_w32] at hi hj
    obtain rfl : i = 0 := by omega
    obtain rfl : j = 0 := by omega
    simp only [setLane32, setLane, lane, DataPath.bits, BitVec.toNat_ofNat, if_true]; omega
  | w16 =>
    simp only [lanes_w16] at hi hj
    have hi : i = 0 ∨ i = 1 := by omega
    have hj : j = 0 ∨ j = 1 := by omega
    rcases hi with rfl | rfl <;> rcases hj with rfl | rfl <;>
      simp [setLane32, setLane, lane, DataPath.bits] <;> omega
  | w8 =>
    simp only [lanes_w8] at hi hj
    have hi : i = 0 ∨ i = 1 ∨ i = 2 ∨ i = 3 := by omega
    have hj : j = 0 ∨ j = 1 ∨ j = 2 ∨ j = 3 := by omega
    rcases hi with rfl | rfl | rfl | rfl <;> rcases hj with rfl | rfl | rfl | rfl <;>
      simp [setLane32, setLane, lane, DataPath.bits] <;> omega

/-- After one lane of `SRC_CNT` is written, that lane holds the value and every other what it held. -/
theorem lane_setLane16 (d : DataPath) (x : Half) {i j : Nat} (v : Nat) (hi : i < d.cntLanes) (hj : j < d.cntLanes)
    (hv : v < 2 ^ 16) :
    lane d (setLane16 d x i v).toNat j = if j = i then v % 2 ^ d.bits else lane d x.toNat j := by
  have hx := x.isLt
  cases d with
  | w32 =>
    simp only [cntLanes_w32] at hi hj
    obtain rfl : i = 0 := by omega
    obtain rfl : j = 0 := by omega
    simp [setLane16, setLane, lane, DataPath.bits]; omega
  | w16 =>
    simp only [cntLanes_w16] at hi hj
    obtain rfl : i = 0 := by omega
    obtain rfl : j = 0 := by omega
    simp [setLane16, setLane, lane, DataPath.bits]; omega
  | w8 =>
    simp only [cntLanes_w8] at hi hj
    have hi : i = 0 ∨ i = 1 := by omega
    have hj : j = 0 ∨ j = 1 := by omega
    rcases hi with rfl | rfl <;> rcases hj with rfl | rfl <;>
      simp [setLane16, setLane, lane, DataPath.bits] <;> omega

/-- Two words with the same lanes are the same word. -/
theorem eq_of_lanes32 {d : DataPath} {x y : Word} (h : ∀ i, i < d.lanes → lane d x.toNat i = lane d y.toNat i) :
    x = y := by
  have hx := x.isLt; have hy := y.isLt
  apply BitVec.eq_of_toNat_eq
  cases d with
  | w32 =>
    simp only [lanes_w32] at h
    have h0 := h 0 (by omega)
    simp only [lane, DataPath.bits] at h0
    omega
  | w16 =>
    simp only [lanes_w16] at h
    have h0 := h 0 (by omega); have h1 := h 1 (by omega)
    simp only [lane, DataPath.bits] at h0 h1; omega
  | w8 =>
    simp only [lanes_w8] at h
    have h0 := h 0 (by omega); have h1 := h 1 (by omega); have h2 := h 2 (by omega); have h3 := h 3 (by omega)
    simp only [lane, DataPath.bits] at h0 h1 h2 h3; omega

/-- Two values of `SRC_CNT` with the same lanes are the same value. -/
theorem eq_of_lanes16 {d : DataPath} {x y : Half} (h : ∀ i, i < d.cntLanes → lane d x.toNat i = lane d y.toNat i) :
    x = y := by
  have hx := x.isLt; have hy := y.isLt
  apply BitVec.eq_of_toNat_eq
  cases d with
  | w32 =>
    simp only [cntLanes_w32] at h
    have h0 := h 0 (by omega)
    simp only [lane, DataPath.bits] at h0
    omega
  | w16 =>
    simp only [cntLanes_w16] at h
    have h0 := h 0 (by omega)
    simp only [lane, DataPath.bits] at h0
    omega
  | w8 =>
    simp only [cntLanes_w8] at h
    have h0 := h 0 (by omega); have h1 := h 1 (by omega)
    simp only [lane, DataPath.bits] at h0 h1; omega

end Sys2Proof.Machine
end

