-- ==== Sys2Proof/Laws/PerInstr.lean ====
section
/-! SUPPORT. One fact per constructor of Instr about its encoding (R60, R66): the three fields of its word, and the row of
the opcode map it stands for. -/

namespace Sys2Proof.Laws.Encoding

/-- The word of an instruction has its code in `op`, 0 in `z` and its operand in `imm`, and the opcode map has a row with
that code and that mnemonic. -/
def Statement (i : Instr) : Prop :=
  fieldOp (encode i) = i.opcode ∧ fieldZ (encode i) = 0#8 ∧ fieldImm (encode i) = i.operandField ∧
  ∃ r ∈ opcodeRows, r.op = i.opcode ∧ r.mnemonic = i.mnemonic

/-- The fields are the encoder's; the row is what each constructor supplies. -/
theorem of_row {i : Instr} (r : OpcodeRow) (mem : r ∈ opcodeRows) (code : r.op = i.opcode)
    (name : r.mnemonic = i.mnemonic) : Statement i :=
  ⟨fieldOp_encode i, fieldZ_encode i, fieldImm_encode i, r, mem, code, name⟩

theorem critEnter : Statement .critEnter :=
  of_row ⟨"CRIT.ENTER", 0x01#8, .z⟩ (by decide) rfl rfl

theorem critExit (token : Bool) : Statement (.critExit token) :=
  of_row ⟨"CRIT.EXIT", 0x02#8, .s⟩ (by decide) rfl rfl

theorem irqBind (ch : Channel) : Statement (.irqBind ch) :=
  of_row ⟨"IRQ.BIND", 0x03#8, .s⟩ (by decide) rfl rfl

theorem rbPop : Statement .rbPop :=
  of_row ⟨"RB.POP", 0x10#8, .z⟩ (by decide) rfl rfl

theorem rbPeek : Statement .rbPeek :=
  of_row ⟨"RB.PEEK", 0x11#8, .z⟩ (by decide) rfl rfl

theorem rbIsEmpty : Statement .rbIsEmpty :=
  of_row ⟨"RB.ISEMPTY", 0x12#8, .z⟩ (by decide) rfl rfl

theorem rbIsFull : Statement .rbIsFull :=
  of_row ⟨"RB.ISFULL", 0x13#8, .z⟩ (by decide) rfl rfl

theorem rbAvail : Statement .rbAvail :=
  of_row ⟨"RB.AVAIL", 0x14#8, .z⟩ (by decide) rfl rfl

theorem clkInit : Statement .clkInit :=
  of_row ⟨"CLK.INIT", 0x20#8, .z⟩ (by decide) rfl rfl

theorem clkSetPeriod (p : Half) : Statement (.clkSetPeriod p) :=
  of_row ⟨"CLK.SETPERIOD", 0x21#8, .p⟩ (by decide) rfl rfl

theorem clkStop : Statement .clkStop :=
  of_row ⟨"CLK.STOP", 0x22#8, .z⟩ (by decide) rfl rfl

theorem clkGetMs : Statement .clkGetMs :=
  of_row ⟨"CLK.GETMS", 0x23#8, .z⟩ (by decide) rfl rfl

theorem clkStatus : Statement .clkStatus :=
  of_row ⟨"CLK.STATUS", 0x24#8, .z⟩ (by decide) rfl rfl

theorem clkGetPeriod : Statement .clkGetPeriod :=
  of_row ⟨"CLK.GETPERIOD", 0x25#8, .z⟩ (by decide) rfl rfl

theorem evTick : Statement .evTick :=
  of_row ⟨"EV.TICK", 0x80#8, .z⟩ (by decide) rfl rfl

theorem evRx (d : Elem) : Statement (.evRx d) :=
  of_row ⟨"EV.RX", 0x81#8, .d⟩ (by decide) rfl rfl

theorem evEnv (ok ti : Bool) : Statement (.evEnv ok ti) :=
  of_row ⟨"EV.ENV", 0x82#8, .e⟩ (by decide) rfl rfl

theorem isrTick : Statement .isrTick :=
  of_row ⟨"ISR.TICK", 0x90#8, .z⟩ (by decide) rfl rfl

theorem isrRx : Statement .isrRx :=
  of_row ⟨"ISR.RX", 0x91#8, .z⟩ (by decide) rfl rfl

end Sys2Proof.Laws.Encoding
end

