-- ==== Sys2Proof/Laws/Queue.lean ====
section
/-! SUPPORT. `COUNT` up and down by one, and the queue the ring stands for (R88): what a push and a pop do to it. -/

namespace Sys2Proof.Machine

/-- `COUNT - 1` of a buffer that is not empty (R83). -/
theorem count_pred {c : Byte} (h : c ≠ 0#8) : (c - 1#8).toNat = c.toNat - 1 ∧ c.toNat ≠ 0 := by
  have h0 : c.toNat ≠ 0 := fun h0 => h (BitVec.eq_of_toNat_eq (by simp [h0]))
  have := c.isLt
  refine ⟨?_, h0⟩
  simp only [BitVec.toNat_sub, BitVec.toNat_ofNat]; omega

/-- `COUNT + 1` of a buffer with room (R82). -/
theorem count_succ {c : Byte} {n : Nat} (h : c.toNat < n) (hn : n ≤ 255) : (c + 1#8).toNat = c.toNat + 1 := by
  simp only [BitVec.toNat_add, BitVec.toNat_ofNat]; omega

/-- Two positions of a ring fewer than `n` apart are different. -/
theorem ring_index_ne {n tail k c : Nat} (hk : k < c) (hc : c < n) (ht : tail < n) :
    (tail + k) % n ≠ (tail + c) % n := by
  intro h
  rcases Nat.lt_or_ge (tail + c) n with h1 | h1
  · rw [Nat.mod_eq_of_lt h1, Nat.mod_eq_of_lt (by omega)] at h; omega
  · rw [Nat.mod_eq_sub_mod h1, Nat.mod_eq_of_lt (a := tail + c - n) (by omega)] at h
    rcases Nat.lt_or_ge (tail + k) n with h2 | h2
    · rw [Nat.mod_eq_of_lt h2] at h; omega
    · rw [Nat.mod_eq_sub_mod h2, Nat.mod_eq_of_lt (by omega)] at h; omega

/-- The queue depends on the storage, the parameters, `COUNT` and `TAIL` alone. -/
theorem queue_congr {s t : State} (hb : t.buf = s.buf) (hp : t.params = s.params) (hc : t.count = s.count)
    (ht : t.tail = s.tail) : t.queue = s.queue := by
  simp [State.queue, elemAt, hb, hp, hc, ht]

/-- A push into a buffer with room appends the element (R82, R88). -/
theorem queue_push {s t : State} (hl : s.params.legal = true) (hr : s.ringInv) (h : s.count.toNat ≠ s.params.n)
    (v : Elem) (hb : t.buf = s.buf.write s.head.toNat (fitElem s.params.wT v)) (hp : t.params = s.params)
    (hc : t.count = s.count + 1#8) (ht : t.tail = s.tail) : t.queue = s.queue ++ [fitElem s.params.wT v] := by
  rw [Params.legal_iff] at hl
  obtain ⟨a1, a2, a3, a4⟩ := hr
  have hcs := count_succ (c := s.count) (n := s.params.n) (by omega) hl.2.1
  simp only [State.queue, hc, hcs, List.range_succ, List.map_append, List.map_cons, List.map_nil, hp, ht]
  congr 1
  · apply List.map_congr_left
    intro k hk
    rw [List.mem_range] at hk
    simp only [elemAt, hb, hp]
    rw [Memory.read?_write_other]
    rw [a4]
    exact ring_index_ne hk (by omega) a3
  · rw [← a4]; simp [elemAt, hb, hp]

/-- A pop of a buffer that is not empty removes the head (R83, R88). -/
theorem queue_pop {s t : State} (hl : s.params.legal = true) (hr : s.ringInv) (h : s.count ≠ 0#8)
    (hb : t.buf = s.buf) (hp : t.params = s.params) (hc : t.count = s.count - 1#8)
    (ht : t.tail = nextIndex s.params.n s.tail) : s.queue = elemAt s s.tail.toNat :: t.queue := by
  rw [Params.legal_iff] at hl
  obtain ⟨a1, a2, a3, a4⟩ := hr
  obtain ⟨hcs, hne⟩ := count_pred h
  obtain ⟨m, hm⟩ : ∃ m, s.count.toNat = m + 1 := ⟨s.count.toNat - 1, by omega⟩
  simp only [State.queue, hc, hcs, hp, ht, hm, List.range_succ_eq_map, List.map_cons, List.map_map,
    nextIndex_toNat s.tail hl.1 hl.2.1, Nat.add_sub_cancel]
  congr 1
  · rw [Nat.add_zero, Nat.mod_eq_of_lt a3]
  · apply List.map_congr_left
    intro k _
    simp only [Function.comp, Nat.mod_add_mod]
    rw [elemAt_congr hb hp]
    congr 2; omega

end Sys2Proof.Machine
end

