-- ==== Sys2Proof/Laws/Step.lean ====
section
/-! SUPPORT. What a line of a script and a step can do, said once, so that proofs over all steps take a step apart with
`step_next_iff` and `LineEffect.of_perform`. -/

namespace Sys2Proof.Machine

/-- The host can present a command iff the main context holds the core and is idle (R141). -/
theorem hostReady_iff {s : State} : hostReady s = true ↔ s.micro.ctx = .main ∧ s.micro.main = .idle := by
  simp [hostReady]

/-- A channel that is masked, not bound or not pending is not dispatchable (R134). -/
theorem not_dispatchable {ch : Channel} {s : State}
    (h : s.ie = false ∨ bound s ch = false ∨ pending s ch = false) : dispatchable ch s = false := by
  rw [Bool.eq_false_iff, Ne, dispatchable_iff]
  rintro ⟨a, b, c, -⟩
  simp_all

/-- Every way a line answers a next state. -/
inductive LineEffect (s : State) : Line → State → Prop where
  | command {w : Word} {i : Instr} {t : State} (ready : hostReady s = true) (decodes : decode s.params.wT w = .ok i)
      (host : i.cls = .hostCommand) (effect : Effect s i t) : LineEffect s (.word w) t
  | event {w : Word} {i : Instr} {t : State} (decodes : decode s.params.wT w = .ok i) (notHost : i.cls ≠ .hostCommand)
      (effect : Effect s i t) : LineEffect s (.word w) t
  | illegal {w : Word} (ready : hostReady s = true) (notTrace : isTraceWord w = false)
      (none_ : decodeHost s.params.wT w = none) : LineEffect s (.word w) (respondIllegal s)
  | port {w : Word} {i : Instr} {t : State} (ready : hostReady s = true) (decodes : decode s.params.wT w = .ok i)
      (host : i.cls = .hostCommand) (effect : Effect s i t) : LineEffect s (.port w) t
  | portIllegal {w : Word} (ready : hostReady s = true) (none_ : decodeHost s.params.wT w = none) :
      LineEffect s (.port w) (respondIllegal s)
  | reset : LineEffect s .reset (resetBlock s)
  | start {w : Word} {i : Instr} (ready : hostReady s = true) (decodes : decode s.params.wT w = .ok i)
      (host : i.cls = .hostCommand) : LineEffect s (.start w) { silent s with micro.main := .busy i 1 }
  | startIllegal {w : Word} (ready : hostReady s = true) (none_ : decodeHost s.params.wT w = none) :
      LineEffect s (.start w) (respondIllegal s)
  | enter {ch : Channel} (enabled : dispatchable ch s = true) : LineEffect s (.enter ch) (enterHandler ch (silent s))
  | micro {t : State} (next : microStep s = .next t) : LineEffect s .micro t

/-- What the command port does with a word (R67). -/
theorem performPort_next {w : Word} {s t : State} (h : performPort w s = .next t) :
    hostReady s = true ∧
      ((∃ i, decode s.params.wT w = .ok i ∧ i.cls = .hostCommand ∧ Effect s i t) ∨
       (decodeHost s.params.wT w = none ∧ t = respondIllegal s)) := by
  unfold performPort at h
  split at h
  · refine ⟨‹_›, ?_⟩
    split at h
    · rename_i i hi
      obtain ⟨h1, h2⟩ := decodeHost_some_iff.mp hi
      exact .inl ⟨i, h1, h2, Effect.of_exec h⟩
    · cases h; exact .inr ⟨‹_›, rfl⟩
  · cases h

/-- A line that answers a next state has one of the listed effects. -/
theorem LineEffect.of_perform {l : Line} {s t : State} (h : performLine l s = .next t) : LineEffect s l t := by
  cases l with
  | word w =>
    simp only [performLine, performWord] at h
    split at h
    · rename_i hw
      split at h
      · rename_i i hi
        refine .event hi (fun hc => ?_) (Effect.of_exec h)
        rw [isTraceWord_of_decode hi, hc] at hw
        cases hw
      · cases h
    · rename_i hw
      obtain ⟨hr, ⟨i, h1, h2, h3⟩ | ⟨h1, rfl⟩⟩ := performPort_next h
      · exact .command hr h1 h2 h3
      · exact .illegal hr (by simpa using hw) h1
  | port w =>
    obtain ⟨hr, ⟨i, h1, h2, h3⟩ | ⟨h1, rfl⟩⟩ := performPort_next h
    · exact .port hr h1 h2 h3
    · exact .portIllegal hr h1
  | reset => cases h; exact .reset
  | start w =>
    simp only [performLine, startCommand] at h
    split at h
    · rename_i hr
      split at h
      · rename_i i hi
        obtain ⟨h1, h2⟩ := decodeHost_some_iff.mp hi
        cases h; exact .start hr h1 h2
      · cases h; exact .startIllegal hr ‹_›
    · cases h
  | enter ch =>
    simp only [performLine, startHandler] at h
    split at h <;> cases h
    exact .enter ‹_›
  | micro => exact .micro h

/-- A step performs the line at the script pointer and advances the pointer (R21). -/
theorem step_next_iff {s t : State} :
    step s = .next t ↔
      ∃ l u, s.script[s.sp]? = some l ∧ performLine l s = .next u ∧ t = { u with sp := u.sp + 1 } := by
  unfold step fetchLine
  cases hl : s.script[s.sp]? with
  | none => simp
  | some l =>
    simp only [Option.some.injEq, exists_and_left, exists_eq_left']
    cases performLine l s with
    | next u => simp only [advance, Host.Outcome.next.injEq, exists_eq_left', eq_comm]
    | fault f => simp [advance]
    | refused r => simp [advance]

/-- The line placed at a position is the one fetched there (log entry 2). -/
theorem getElem?_placeLine (ls : List Line) (k : Nat) (l : Line) : (placeLine ls k l)[k]? = some l := by
  induction k generalizing ls with
  | zero => cases ls <;> rfl
  | succ k ih => cases ls <;> simp [placeLine, ih]

end Sys2Proof.Machine
end

