-- ==== Sys2Proof/Tests/Slice0.lean ====
section
/-! SUPPORT. The model's own tests. Expected words, responses and states are those of 95_test_vectors.md (its vector is named
in each comment) or hand calculation from the rule named. The second half holds, for every statement with hypotheses, a
concrete state and operands that meet them. -/

namespace Sys2Proof.Tests

open Sys2Proof.Machine

/-! ## Helpers -/

/-- Reset with `N = 4`, `W_T = 8`, `F_TICK = 64`, `W_DP = 8`. -/
def base : State := State.resetWith ⟨4, 8, 64, .w8⟩

/-- A ring `(HEAD, TAIL, COUNT; BUF)` over the base state. -/
def ring (n head tail count : Nat) (buf : Memory) : State :=
  { base with
    params := ⟨n, 8, 64, .w8⟩
    head := BitVec.ofNat 8 head, tail := BitVec.ofNat 8 tail, count := BitVec.ofNat 8 count, buf := buf }

/-- Interrupts on and both handlers bound. -/
def armed (s : State) : State := { s with ie := true, boundTick := true, boundRx := true }

/-- With a datum waiting. -/
def withDatum (d : Elem) (s : State) : State := { s with rxPend := true, rxData := d }

/-- The clock at 1000 ms a tick (`CLK.SETPERIOD 64` at `F_TICK = 64`) with a tick waiting. -/
def ticking : State := { armed base with srcEn := true, srcCnt := 64#16, tickPeriodMs := 1000#32, tickPend := true }

/-- The next state, if there is one. -/
def nextOf (o : Host.Outcome State Fault Refusal) : Option State :=
  match o with
  | .next s => some s
  | .fault _ => none
  | .refused _ => none

/-- The fault, if the machine stops with one. -/
def faultOf (o : Host.Outcome State Fault Refusal) : Option Fault :=
  match o with
  | .next _ => none
  | .fault f => some f
  | .refused _ => none

/-- The status and data a step answers, `none` if there is no response or no next state. -/
def answer (i : Instr) (s : State) : Option Response := (nextOf (exec i s)).bind State.resp

/-- `HEAD`, `TAIL`, `COUNT` and storage after an operation. -/
def ringAfter (i : Instr) (s : State) : Option (Nat × Nat × Nat × Memory) :=
  (nextOf (exec i s)).map fun t => (t.head.toNat, t.tail.toNat, t.count.toNat, t.buf)

/-- The period, countdown and enable after an operation. -/
def clockAfter (i : Instr) (s : State) : Option (Nat × Nat × Bool) :=
  (nextOf (exec i s)).map fun t => (t.tickPeriodMs.toNat, t.srcCnt.toNat, t.srcEn)

/-! ## Well-formedness and parameters -/

/-- R62, format D: a datum of 9 bits is refused when `W_T = 8`, the largest 8-bit one is not. -/
theorem test_wellFormed_datum :
    (Instr.evRx 0x100#16).wellFormed 8 = false ∧ (Instr.evRx 0xFF#16).wellFormed 8 = true ∧
      (Instr.evRx 0xFFFF#16).wellFormed 16 = true := by decide

/-- R5: the bounds of each parameter. -/
theorem test_params_bounds :
    (Params.mk 1 1 1 .w32).legal = true ∧ (Params.mk 255 16 1 .w8).legal = true ∧
      (Params.mk 0 8 64 .w8).legal = false ∧ (Params.mk 256 8 64 .w8).legal = false ∧
      (Params.mk 4 0 64 .w8).legal = false ∧ (Params.mk 4 17 64 .w8).legal = false ∧
      (Params.mk 4 8 0 .w8).legal = false := by decide

/-- R7, R44: the lanes of each data path. -/
theorem test_lane_counts :
    (DataPath.w8.lanes, DataPath.w16.lanes, DataPath.w32.lanes) = (4, 2, 1) ∧
      (DataPath.w8.cntLanes, DataPath.w16.cntLanes, DataPath.w32.cntLanes) = (2, 1, 1) := by decide

/-! ## Decoding: D-ENC-1, D-ENC-2, D-ENC-3 -/

/-- D-ENC-1, critical section: op 00000001 to 00000011, z 0, operand bit 0. -/
theorem test_decode_critical :
    decode 8 (0b00000001_00000000_0000000000000000#32) = .ok .critEnter ∧
    decode 8 (0b00000010_00000000_0000000000000000#32) = .ok (.critExit false) ∧
    decode 8 (0b00000010_00000000_0000000000000001#32) = .ok (.critExit true) ∧
    decode 8 (0b00000011_00000000_0000000000000000#32) = .ok (.irqBind .tick) ∧
    decode 8 (0b00000011_00000000_0000000000000001#32) = .ok (.irqBind .rx) := by decide

/-- D-ENC-1, ring buffer: op 00010000 to 00010100. -/
theorem test_decode_ring :
    decode 8 (0b00010000_00000000_0000000000000000#32) = .ok .rbPop ∧
    decode 8 (0b00010001_00000000_0000000000000000#32) = .ok .rbPeek ∧
    decode 8 (0b00010010_00000000_0000000000000000#32) = .ok .rbIsEmpty ∧
    decode 8 (0b00010011_00000000_0000000000000000#32) = .ok .rbIsFull ∧
    decode 8 (0b00010100_00000000_0000000000000000#32) = .ok .rbAvail := by decide

/-- D-ENC-1 and D-ENC-3, clock: op 00100000 to 00100101, every operand of format P legal. -/
theorem test_decode_clock :
    decode 8 (0b00100000_00000000_0000000000000000#32) = .ok .clkInit ∧
    decode 8 (0b00100001_00000000_0000000001000000#32) = .ok (.clkSetPeriod 64#16) ∧
    decode 8 (0b00100001_00000000_1111111111111111#32) = .ok (.clkSetPeriod 65535#16) ∧
    decode 8 (0b00100010_00000000_0000000000000000#32) = .ok .clkStop ∧
    decode 8 (0b00100011_00000000_0000000000000000#32) = .ok .clkGetMs ∧
    decode 8 (0b00100100_00000000_0000000000000000#32) = .ok .clkStatus ∧
    decode 8 (0b00100101_00000000_0000000000000000#32) = .ok .clkGetPeriod := by decide

/-- D-ENC-1, events and dispatch: op 10000000 to 10000010, 10010000 and 10010001. -/
theorem test_decode_trace :
    decode 8 (0b10000000_00000000_0000000000000000#32) = .ok .evTick ∧
    decode 8 (0b10000001_00000000_0000000011111111#32) = .ok (.evRx 0xFF#16) ∧
    decode 8 (0b10000010_00000000_0000000000000001#32) = .ok (.evEnv false true) ∧
    decode 8 (0b10000010_00000000_0000000000000010#32) = .ok (.evEnv true false) ∧
    decode 8 (0b10010000_00000000_0000000000000000#32) = .ok .isrTick ∧
    decode 8 (0b10010001_00000000_0000000000000000#32) = .ok .isrRx := by decide

/-- D-ENC-2: reserved operations, and events and dispatch steps, are no host commands. -/
theorem test_illegal_op :
    decodeHost 8 0x00000001#32 = none ∧ decodeHost 8 0x15000000#32 = none ∧ decodeHost 8 0x26000000#32 = none ∧
    decodeHost 8 0x30000000#32 = none ∧ decodeHost 8 0x80000000#32 = none ∧ decodeHost 8 0x90000000#32 = none := by decide

/-- D-ENC-2: a wrong `z` or `imm` beside a legal `op`. -/
theorem test_illegal_fields :
    decodeHost 8 0x23000001#32 = none ∧ decodeHost 8 0x23010000#32 = none ∧ decodeHost 8 0x21010040#32 = none ∧
    decodeHost 8 0x02000002#32 = none ∧ decodeHost 8 0x03000002#32 = none := by decide

/-- R62: the datum must fit `W_T` bits, and the bits above format E's two must be 0. -/
theorem test_illegal_operands :
    decode 8 0x81000100#32 = .error .unusedImmBits ∧ decode 16 0x81000100#32 = .ok (.evRx 0x100#16) ∧
    decode 8 0x82000004#32 = .error .unusedImmBits ∧ decode 8 0x83000000#32 = .error .reservedOp ∧
    decode 8 0x90010000#32 = .error .zNotZero := by decide

/-- R66 and opcode_table.json, `W_T = 8`: the masks of the five formats. -/
theorem test_masks :
    Format.mask 8 .z = 0xFFFFFFFF#32 ∧ Format.mask 8 .s = 0xFFFFFFFE#32 ∧ Format.mask 8 .p = 0xFFFF0000#32 ∧
    Format.mask 8 .d = 0xFFFFFF00#32 ∧ Format.mask 8 .e = 0xFFFFFFFC#32 := by decide

/-- opcode_table.json's match words through the host's two functions: the decoder, and the fetch of a placed word. -/
theorem test_table_word :
    decodeTableWord 32 0x21000000 = some (.clkSetPeriod 0#16) ∧ decodeTableWord 32 0x91000000 = some .isrRx ∧
    decodeTableWord 32 0x15000000 = none ∧
    fetchLine (base.withFetchWord 32 0x10000000) = some (.word 0x10000000#32) := by decide

/-! ## Critical section: D-CS-1 to D-CS-9 -/

/-- D-CS-1, D-CS-2. -/
theorem test_critEnter_answers_old_ie :
    answer .critEnter (armed base) = some ⟨.ok, 1#32⟩ ∧ answer .critEnter base = some ⟨.ok, 0#32⟩ ∧
    (nextOf (exec .critEnter (armed base))).map State.ie = some false := by decide

/-- D-CS-3, D-CS-4. -/
theorem test_critExit_writes_ie :
    (nextOf (exec (.critExit true) base)).map State.ie = some true ∧
    (nextOf (exec (.critExit false) (armed base))).map State.ie = some false ∧
    answer (.critExit true) base = some ⟨.ok, 0#32⟩ := by decide

/-- D-CS-7: binding channel 1 leaves channel 0 unbound. -/
theorem test_irqBind_one_channel :
    (nextOf (exec (.irqBind .rx) base)).map (fun t => (t.boundTick, t.boundRx, t.resp)) =
      some (false, true, some ⟨.ok, 0#32⟩) := by decide

/-- D-CS-8, D-CS-9: a bound pending channel is dispatchable with `IE = 1` and not with `IE = 0`. -/
theorem test_dispatch_gate :
    dispatchable .tick ticking = true ∧ dispatchable .tick { ticking with boundTick := false } = false ∧
    dispatchable .tick { ticking with ie := false } = false := by decide

/-! ## Ring buffer: D-RB-1 to D-RB-12 -/

/-- D-RB-5: `TAIL` wraps and the element is not erased. -/
theorem test_rbPop_wraps :
    ringAfter .rbPop (ring 4 1 3 2 [(0, 0x51#16), (3, 0x50#16)]) = some (1, 0, 1, [(0, 0x51#16), (3, 0x50#16)]) ∧
    answer .rbPop (ring 4 1 3 2 [(0, 0x51#16), (3, 0x50#16)]) = some ⟨.ok, 0x50#32⟩ := by decide

/-- D-RB-1, D-RB-10: an empty buffer, and an element of all ones, zero-extended. -/
theorem test_rbPop_empty_and_zext :
    answer .rbPop base = some ⟨.empty, 0#32⟩ ∧
    answer .rbPop (ring 4 1 0 1 [(0, 0xFF#16)]) = some ⟨.ok, 0xFF#32⟩ := by decide

/-- D-RB-8, D-RB-1b: `RB.PEEK` answers the oldest and removes nothing. -/
theorem test_rbPeek_keeps :
    answer .rbPeek (ring 4 2 0 2 [(0, 0x41#16), (1, 0x42#16)]) = some ⟨.ok, 0x41#32⟩ ∧
    ringAfter .rbPeek (ring 4 2 0 2 [(0, 0x41#16), (1, 0x42#16)]) = some (2, 0, 2, [(0, 0x41#16), (1, 0x42#16)]) ∧
    answer .rbPeek base = some ⟨.empty, 0#32⟩ := by decide

/-- D-RB-1c, D-RB-6: the predicates on an empty buffer and on a full one of one element. -/
theorem test_ring_predicates :
    [answer .rbIsEmpty base, answer .rbIsFull base, answer .rbAvail base] =
      [some ⟨.ok, 1#32⟩, some ⟨.ok, 0#32⟩, some ⟨.ok, 0#32⟩] ∧
    [answer .rbIsEmpty (ring 1 0 0 1 [(0, 0x7E#16)]), answer .rbIsFull (ring 1 0 0 1 [(0, 0x7E#16)]),
      answer .rbAvail (ring 1 0 0 1 [(0, 0x7E#16)])] =
      [some ⟨.ok, 0#32⟩, some ⟨.ok, 1#32⟩, some ⟨.ok, 1#32⟩] := by decide

/-- D-RB-4: a push at the last index wraps `HEAD`. -/
theorem test_isrRx_wraps :
    ringAfter .isrRx (withDatum 0x5A#16 (armed (ring 4 3 1 2 [(1, 0x41#16), (2, 0x42#16)]))) =
      some (0, 1, 3, [(1, 0x41#16), (2, 0x42#16), (3, 0x5A#16)]) := by decide

/-- D-RB-3: a push into a full buffer drops the newest and clears `RX_PEND`. -/
theorem test_isrRx_full :
    ringAfter .isrRx (withDatum 0x43#16 (armed (ring 2 0 0 2 [(0, 0x41#16), (1, 0x42#16)]))) =
      some (0, 0, 2, [(0, 0x41#16), (1, 0x42#16)]) ∧
    (nextOf (exec .isrRx (withDatum 0x43#16 (armed (ring 2 0 0 2 []))))).map State.rxPend = some false := by decide

/-! ## Clock: D-CLK-1 to D-CLK-6 -/

/-- D-CLK-1: the exact quotient, its floor, and the largest period. -/
theorem test_periodMs :
    periodMs 64 1#16 = 15#32 ∧ periodMs 64 65535#16 = 0xF9FF0#32 ∧ periodMs 4096 4#16 = 0#32 ∧
    periodMs 4096 5#16 = 1#32 ∧ periodMs 32768 33#16 = 1#32 ∧ periodMs 1 65535#16 = 0x03E7FC18#32 ∧
    periodMs 3 2#16 = 666#32 := by decide

/-- D-CLK-2: the accumulator is unsigned and wraps. -/
theorem test_accumulate :
    accumulate 0x7FFFFFFF#32 1#32 = 0x80000000#32 ∧ accumulate 0xFFFFFF00#32 0x200#32 = 0x100#32 ∧
    accumulate 0xFFFFFC18#32 0x3E8#32 = 0#32 ∧ accumulate 0xFFFFFFFF#32 0x03E7FC18#32 = 0x03E7FC17#32 := by decide

/-- D-CLK-3 j, k. -/
theorem test_clkInit :
    answer .clkInit { base with envTimeInvalid := true } = some ⟨.ok, 1#32⟩ ∧
    (nextOf (exec .clkInit { base with fault := true })).map State.fault = some false := by decide

/-- D-CLK-3 c, i. -/
theorem test_clkSetPeriod_runs :
    clockAfter (.clkSetPeriod 64#16) base = some (1000, 64, true) ∧
    answer (.clkSetPeriod 64#16) base = some ⟨.ok, 1#32⟩ ∧
    clockAfter (.clkSetPeriod 4#16) (State.resetWith ⟨4, 8, 4096, .w8⟩) = some (0, 4, true) := by decide

/-- D-CLK-3 g, h. -/
theorem test_clkSetPeriod_refused :
    clockAfter (.clkSetPeriod 32#16) { ticking with envSrcOk := false } = some (0, 0, false) ∧
    answer (.clkSetPeriod 32#16) { ticking with envSrcOk := false } = some ⟨.ok, 0#32⟩ ∧
    answer (.clkSetPeriod 0#16) { base with envSrcOk := false } = some ⟨.ok, 1#32⟩ := by decide

/-- D-CLK-3 f: stopping keeps the count. -/
theorem test_clkStop :
    clockAfter .clkStop { ticking with acc := 3000#32 } = some (0, 0, false) ∧
    (nextOf (exec .clkStop { ticking with acc := 3000#32 })).map State.acc = some 3000#32 := by decide

/-- D-CLK-3 d, l, m. -/
theorem test_clock_reads :
    answer .clkGetPeriod ticking = some ⟨.ok, 0x3E8#32⟩ ∧
    answer .clkStatus { ticking with fault := true } = some ⟨.ok, 3#32⟩ ∧ answer .clkStatus ticking = some ⟨.ok, 2#32⟩ ∧
    answer .clkGetMs { base with acc := 0x12345678#32 } = some ⟨.ok, 0x12345678#32⟩ := by decide

/-- D-CLK-6, D-CLK-3 o: the handler wraps the accumulator and runs although the source is stopped. -/
theorem test_isrTick :
    (nextOf (exec .isrTick { ticking with acc := 0xFFFFFF00#32, tickPeriodMs := 0x200#32, srcEn := false })).map
      (fun t => (t.acc, t.tickPend, t.resp)) = some (0x100#32, false, none) := by decide

/-! ## Events: D-EV-1 to D-EV-7, D-ENC-4 -/

/-- D-EV-2, D-EV-3. -/
theorem test_evTick :
    (nextOf (exec .evTick ticking)).map State.tickPend = some true ∧
    faultOf (exec .evTick base) = some .tickSourceDisabled := by decide

/-- D-EV-4. -/
theorem test_evRx :
    (nextOf (exec (.evRx 0x41#16) base)).map (fun t => (t.rxPend, t.rxData)) = some (true, 0x41#16) := by decide

/-- D-RB-12, D-EV-4: an overrun keeps one of the two data, whatever the free value is. -/
theorem test_evRx_overrun (t : State) (h : exec (.evRx 0x42#16) (withDatum 0x41#16 base) = .next t) :
    t.rxPend = true ∧ (t.rxData = 0x41#16 ∨ t.rxData = 0x42#16) := by
  cases h
  refine ⟨rfl, ?_⟩
  by_cases old : Config.overrunKeepsOld 0 = true
  · exact .inl (if_pos old)
  · exact .inr (if_neg old)

/-- D-EV-5. -/
theorem test_evEnv :
    (nextOf (exec (.evEnv false true) base)).map (fun t => (t.envSrcOk, t.envTimeInvalid)) = some (false, true) := by
  decide

/-- D-ENC-4, D-EV-7: dispatches that are not enabled. -/
theorem test_not_enabled :
    faultOf (performLine (.word 0x90000000#32) base) = some (.dispatchNotEnabled .tick) ∧
    faultOf (performLine (.word 0x91000000#32) { withDatum 0x41#16 (armed base) with boundRx := false }) =
      some (.dispatchNotEnabled .rx) := by decide

/-! ## Layer B: D-LB-1, D-LB-2 -/

/-- D-LB-1: the four lane additions of `ISR.TICK` with their carries give the 32-bit sum. -/
theorem test_lane_addition :
    (nextOf (runLines (List.replicate 7 .micro)
      { ticking with acc := 0x0001FFFF#32, tickPeriodMs := 0x3E8#32, micro.ctx := .isr .tick 1 })).map
      (fun t => (t.acc, t.tickPend, t.micro.ctx)) = some (0x000203E7#32, false, .main) := by decide

/-- D-LB-2: the handler is not enabled in the bracket of `CLK.GETMS` and is before it. -/
theorem test_bracket_masks_handler :
    faultOf (runLines [.start 0x23000000#32, .micro, .micro, .enter .tick] ticking) = some (.dispatchNotEnabled .tick) ∧
    (nextOf (runLines [.start 0x23000000#32, .enter .tick] ticking)).isSome = true := by decide

/-! ## Assembler (R70 to R73) -/

/-- The first lines of P1 with a comment, a keyword operand and an expectation. -/
theorem test_assembler :
    parseScript (".param N=4 W_T=8 F_TICK=64 W_DP=8\nIRQ.BIND tick => OK 0x00000000 ; bind\n" ++
      "CLK.SETPERIOD Off\nEV.RX 0x41\n").toList =
      some (⟨4, 8, 64, .w8⟩,
        [⟨.irqBind .tick, some ⟨.ok, 0#32⟩⟩, ⟨.clkSetPeriod 0#16, none⟩, ⟨.evRx 0x41#16, none⟩]) := by decide

/-! ## Witnesses: for each statement with hypotheses, what meets them all together -/

/-- An operation answers a next state. -/
abbrev runs (i : Instr) (s : State) : Prop := ∃ t, exec i s = .next t

/-- A line answers a next state. -/
abbrev happens (l : Line) (s : State) : Prop := ∃ t, performLine l s = .next t

/-- A state one micro-step into a pop, whose script goes on with the next. -/
def popping : State :=
  { ring 4 2 0 2 [(0, 0x41#16), (1, 0x42#16)] with
    micro := { Micro.idle with main := .busy .rbPop 7, saved := true, c := 2#8 }, tail := 1#8, script := [.micro] }

/-- A state inside the receive handler, between the writes of `HEAD` and `COUNT`. -/
def receiving : State :=
  { armed (ring 4 3 0 2 [(0, 0x41#16), (1, 0x42#16), (2, 0x43#16)]) with
    micro := { Micro.idle with ctx := .isr .rx 6, isrC := 2#8, isrH := 2#8 }, rxPend := true, script := [.micro] }

/-- A state inside `CLK.SETPERIOD 0x0140`, lane 0 of `SRC_CNT` written. -/
def programming : State :=
  { base with
    srcCnt := 0x40#16
    micro := { Micro.idle with main := .busy (.clkSetPeriod 0x140#16) 5, q := 0x140#16 }
    script := [.micro] }

theorem witness_DecodeOfEncode :
    (Instr.evRx 1#16).wellFormed 1 = true ∧ (Instr.evRx 0xFFFF#16).wellFormed 16 = true ∧
    (Instr.evEnv true true).wellFormed 1 = true ∧ (Instr.clkSetPeriod 65535#16).wellFormed 1 = true := by decide

theorem witness_EncodeOfDecode :
    decode 1 0x81000001#32 = .ok (.evRx 1#16) ∧ decode 16 0x8100FFFF#32 = .ok (.evRx 0xFFFF#16) ∧
    decode 8 0x82000003#32 = .ok (.evEnv true true) := by decide

theorem witness_DecoderFollowsMaskAndMatch :
    decode 16 0x8100FFFF#32 = .ok (.evRx 0xFFFF#16) ∧ (⟨"EV.RX", 0x81#8, .d⟩ : OpcodeRow) ∈ opcodeRows ∧
    OpcodeRow.selects 16 ⟨"EV.RX", 0x81#8, .d⟩ 0x8100FFFF#32 = true ∧
    OpcodeRow.selects 1 ⟨"EV.RX", 0x81#8, .d⟩ 0x81000001#32 = true ∧
    OpcodeRow.selects 8 ⟨"CLK.SETPERIOD", 0x21#8, .p⟩ 0x2100FFFF#32 = true := by decide

theorem witness_IllegalCommandAnsweredErr :
    hostReady base = true ∧ illegalCommand 0x23010000#32 ∧ illegalCommand 0x15000000#32 ∧ illegalCommand 0x23000001#32 ∧
    illegalCommand 0x02000002#32 ∧ ¬ illegalCommand 0x02000001#32 ∧ ¬ illegalCommand 0x2100FFFF#32 ∧
    ¬ illegalCommand 0x25000000#32 :=
  ⟨by decide, by decide, by decide, by decide, by decide, by decide, by decide, by decide⟩

theorem witness_EventCodesAreNoCommands :
    hostReady base = true ∧ isTraceWord 0x80000000#32 = true ∧ isTraceWord 0x9F000000#32 = true ∧
    decode base.params.wT 0x80000000#32 = .ok .evTick ∧ decode base.params.wT 0x9F000000#32 = .error .reservedOp := by
  decide

theorem witness_StepRunsDecodedInstruction :
    ({ base with script := [.word 0x10000000#32] } : State).script[0]? = some (.word 0x10000000#32) ∧
    decode 8 0x10000000#32 = .ok .rbPop ∧ hostReady base = true := by decide

theorem witness_ResetMeetsInvariants :
    (Params.mk 1 1 1 .w32).legal = true ∧ (Params.mk 255 16 4096 .w8).legal = true := by decide

theorem witness_CritEnterReturnsAndClearsIe :
    ∃ s, s.micro.ctx = .main ∧ s.micro.main = .busy .critEnter 1 ∧ happens .micro s :=
  ⟨{ armed base with micro.main := .busy .critEnter 1 }, rfl, rfl, _, rfl⟩

theorem witness_NestedSectionsRestoreIe :
    ∃ u v w xs, exec .critEnter (armed base) = .next u ∧ u.resp = some ⟨.ok, 1#32⟩ ∧ Balanced u xs v ∧
      exec (.critExit ((1#32).getLsbD 0)) v = .next w :=
  ⟨_, _, _, _, rfl, rfl,
    .section_ (.other .rbAvail (.refl _) (by decide) (by decide) rfl) rfl rfl (.refl _) rfl, rfl⟩

theorem witness_OnlyCriticalSectionWritesIe :
    runs .rbPop (armed (ring 4 1 0 1 [(0, 0x41#16)])) ∧ runs .isrTick ticking := ⟨⟨_, rfl⟩, ⟨_, rfl⟩⟩

theorem witness_PopAnswersOldestElement :
    (ring 255 0 254 1 []).params.legal = true ∧ (ring 255 0 254 1 []).tail.toNat < (ring 255 0 254 1 []).params.n ∧
    (ring 255 0 254 1 []).count ≠ 0#8 ∧ base.params.legal = true ∧ base.tail.toNat < base.params.n ∧
    base.count = 0#8 := by decide

theorem witness_PeekAnswersOldestElement :
    (ring 4 0 3 1 []).tail.toNat < (ring 4 0 3 1 []).params.n ∧ (ring 4 0 3 1 []).count ≠ 0#8 ∧
    base.tail.toNat < base.params.n ∧ base.count = 0#8 := by decide

theorem witness_OutOfRangeIndexStops :
    (ring 4 0 4 1 []).params.n ≤ (ring 4 0 4 1 []).tail.toNat ∧ (ring 4 0 4 1 []).count ≠ 0#8 ∧
    (ring 4 4 0 0 []).params.n ≤ (ring 4 4 0 0 []).head.toNat ∧ (ring 4 4 0 0 []).count.toNat ≠ (ring 4 4 0 0 []).params.n ∧
    dispatchable .rx (withDatum 1#16 (armed (ring 4 4 0 0 []))) = true := by decide

theorem witness_RxHandlerPushesOrDropsNewest :
    (∀ s ∈ [withDatum 0x5A#16 (armed (ring 4 3 1 2 [])), withDatum 0xFF#16 (armed (ring 1 0 0 1 [(0, 0x41#16)])),
        withDatum 0#16 (armed (ring 255 254 10 244 []))],
      s.params.legal = true ∧ s.head.toNat < s.params.n ∧ s.count.toNat ≤ s.params.n ∧
      s.rxData.toNat < 2 ^ s.params.wT ∧ s.ie = true ∧ s.boundRx = true ∧ s.rxPend = true ∧ s.micro.ctx = .main) ∧
    base.ie = false ∧ (armed base).rxPend = false ∧ (withDatum 1#16 { base with ie := true }).boundRx = false := by decide

theorem witness_OperationsKeepRingInvariants :
    (∀ s ∈ [ring 4 0 0 4 [], ring 4 0 1 3 [], ring 1 0 0 0 [], ring 255 0 10 245 []],
      s.params.legal = true ∧ s.ringInv) ∧
    runs .rbPop (ring 4 0 0 4 []) ∧ runs .isrRx (withDatum 1#16 (armed (ring 1 0 0 0 []))) :=
  ⟨by decide, ⟨_, rfl⟩, ⟨_, rfl⟩⟩

theorem witness_OperationsRefineQueue :
    (ring 4 0 1 3 []).params.legal = true ∧ (ring 4 0 1 3 []).ringInv ∧ runs .rbPop (ring 4 0 1 3 []) ∧
    runs .isrRx (withDatum 1#16 (armed (ring 4 0 1 3 []))) ∧ (ring 4 0 1 3 []).count.toNat < 4 ∧
    runs .isrRx (withDatum 1#16 (armed (ring 4 0 0 4 []))) ∧ runs .rbPop (ring 4 0 0 0 []) :=
  ⟨by decide, by decide, ⟨_, rfl⟩, ⟨_, rfl⟩, by decide, ⟨_, rfl⟩, ⟨_, rfl⟩⟩

/-- A run with a push and a pop from reset with `N = 1`: bind, enable, receive, dispatch, pop. -/
def shortRun : List Line :=
  [.word 0x03000001#32, .word 0x02000001#32, .word 0x81000041#32, .word 0x91000000#32, .port 0x10000000#32]

theorem witness_FirstInFirstOut :
    (Params.mk 1 8 64 .w32).legal = true ∧ (∀ l ∈ shortRun, l.layerA = true) ∧
    (∃ s, runLines shortRun (State.resetWith ⟨1, 8, 64, .w32⟩) = .next s) ∧
    pushedElems shortRun (State.resetWith ⟨1, 8, 64, .w32⟩) = [0x41#32] ∧
    poppedData shortRun (State.resetWith ⟨1, 8, 64, .w32⟩) = [0x41#32] :=
  ⟨by decide, by decide, ⟨_, rfl⟩, by decide, by decide⟩

/-- D-RB-8: a push between the peek and the pop. -/
theorem witness_PeekThenPop :
    ∃ s u v, s.params.legal = true ∧ s.ringInv ∧ exec .rbPeek s = .next u ∧ u.resp = some ⟨.ok, 0x41#32⟩ ∧
      (∀ l ∈ [Line.word 0x91000000#32], l.layerA = true ∧ l ≠ .word 0x10000000#32 ∧ l ≠ .port 0x10000000#32) ∧
      runLines [.word 0x91000000#32] u = .next v :=
  ⟨withDatum 0x43#16 (armed (ring 4 2 0 2 [(0, 0x41#16), (1, 0x42#16)])), _, _, by decide, by decide, rfl, by decide,
    by decide, rfl⟩

theorem witness_AvailabilityAndFullnessLastUntilPop :
    (ring 2 0 0 2 []).params.legal = true ∧ (ring 2 0 0 2 []).ringInv ∧ (ring 2 0 0 2 []).count.toNat = 2 ∧
    runs .isrRx (withDatum 1#16 (armed (ring 2 0 0 2 []))) ∧ Instr.isrRx ≠ .rbPop :=
  ⟨by decide, by decide, by decide, ⟨_, rfl⟩, by decide⟩

theorem witness_SetPeriodProgramsSource :
    1 ≤ base.params.fTick ∧ 1 ≤ (State.resetWith ⟨4, 8, 1, .w8⟩).params.fTick ∧ base.envSrcOk = true ∧
    ({ base with envSrcOk := false } : State).envSrcOk = false ∧ (1#16 : Half) ≠ 0#16 ∧ (65535#16 : Half) ≠ 0#16 := by
  decide

theorem witness_TickHandlerAccumulates :
    ticking.ie = true ∧ ticking.boundTick = true ∧ ticking.tickPend = true ∧ ticking.micro.ctx = .main ∧
    base.ie = false ∧ base.boundTick = false ∧ (armed base).tickPend = false := by decide

theorem witness_WhoChangesClockState :
    runs .rbAvail ticking ∧ runs .isrTick ticking ∧ runs .clkStop ticking ∧ runs .clkInit ticking :=
  ⟨⟨_, rfl⟩, ⟨_, rfl⟩, ⟨_, rfl⟩, ⟨_, rfl⟩⟩

/-- P1 cut to one tick: bind, program, enable, tick, dispatch. -/
def tickRun : List Line :=
  [.word 0x03000000#32, .word 0x21000040#32, .word 0x02000001#32, .word 0x80000000#32, .word 0x90000000#32]

theorem witness_ExactMillisecondCount :
    (∀ l ∈ tickRun, l.layerA = true) ∧ (∃ s, runLines tickRun base = .next s) ∧
    tickPeriods tickRun base = List.replicate 1 1000 := ⟨by decide, ⟨_, rfl⟩, by decide⟩

/-- D-CLK-6: the later value is smaller and the difference is the elapsed count. -/
theorem witness_MonotonicModuloWrap :
    ∃ s t : State, (∀ l ∈ [Line.word 0x90000000#32], l.layerA = true) ∧ runLines [.word 0x90000000#32] s = .next t ∧
      exec .clkGetMs s = .next { s with resp := some ⟨.ok, 0xFFFFFF00#32⟩ } ∧
      exec .clkGetMs t = .next { t with resp := some ⟨.ok, 0x100#32⟩ } ∧
      (tickPeriods [.word 0x90000000#32] s).sum < 2 ^ 32 :=
  ⟨{ ticking with acc := 0xFFFFFF00#32, tickPeriodMs := 0x200#32 }, _, by decide, rfl, rfl, rfl, by decide⟩

/-- The last clause of the same statement: a difference without a wrap. -/
theorem witness_MonotonicModuloWrap_noWrap :
    (0 : Nat) + (tickPeriods [.word 0x90000000#32] ticking).sum < 2 ^ 32 ∧
    exec .clkGetMs ticking = .next { ticking with resp := some ⟨.ok, 0#32⟩ } := ⟨by decide, rfl⟩

theorem witness_ClockRegistersStayLegal :
    base.params.legal = true ∧ base.clockInv ∧ ticking.clockInv ∧ runs (.clkSetPeriod 65535#16) base ∧
    runs .clkStop ticking := ⟨by decide, by decide, by decide, ⟨_, rfl⟩, ⟨_, rfl⟩⟩

theorem witness_TickEventRaisesPending : ticking.srcEn = true ∧ base.srcEn = false := by decide

theorem witness_ReceiveEventLatchesDatum :
    (0xFF#16 : Elem).toNat < 2 ^ base.params.wT ∧ base.params.legal = true ∧ base.rxPend = false ∧
    (withDatum 0x41#16 base).rxPend = true ∧ rxStored (withDatum 0x41#16 base) = false ∧ base.micro.ctx = .main ∧
    receiving.rxPend = true ∧ rxStored receiving = true := by decide

theorem witness_DispatchCondition :
    ticking.params.legal = true ∧ ticking.ringInv ∧ dispatchable .tick base = false ∧ dispatchable .rx base = false := by
  decide

/-- D-CLK-5 and P3: reads between the ticks, and the section's exit before the handler. -/
theorem witness_RequestsMerge :
    undispatched .tick [.word 0x23000000#32, .port 0x14000000#32] ∧ undispatched .tick [.word 0x02000001#32] ∧
    ∃ t t' u u' v, exec .evTick { ticking with ie := false } = .next t ∧
      runLines [.word 0x23000000#32, .port 0x14000000#32] t = .next t' ∧ exec .evTick t' = .next u ∧
      runLines [.word 0x02000001#32] u = .next u' ∧ exec .isrTick u' = .next v :=
  ⟨by decide, by decide, _, _, _, _, _, rfl, rfl, rfl, rfl, rfl⟩

/-- The second half of the same statement: a pop between the data, a level change before the handler. -/
theorem witness_RequestsMerge_rx :
    ∃ s : State, s.params.legal = true ∧ s.ringInv ∧ s.rxPend = false ∧ (1#16 : Elem).toNat < 2 ^ s.params.wT ∧
      (0xFF#16 : Elem).toNat < 2 ^ s.params.wT ∧ undispatched .rx [.word 0x10000000#32] ∧
      undispatched .rx [.word 0x82000003#32] ∧
      (∀ l ∈ [Line.word 0x10000000#32] ++ [.word 0x82000003#32], ∀ d, l ≠ .word (encode (.evRx d))) ∧
      ∃ t t' u u' v, exec (.evRx 1#16) s = .next t ∧ runLines [.word 0x10000000#32] t = .next t' ∧
        exec (.evRx 0xFF#16) t' = .next u ∧ runLines [.word 0x82000003#32] u = .next u' ∧
        u'.count.toNat < u'.params.n ∧ exec .isrRx u' = .next v := by
  refine ⟨armed (ring 4 1 0 1 [(0, 0x41#16)]), by decide, by decide, by decide, by decide, by decide, by decide, by decide,
    ?_, _, _, _, _, _, rfl, rfl, rfl, rfl, by decide, rfl⟩
  intro l hl d he
  have op : fieldOp (encode (.evRx d)) = 0x81#8 := fieldOp_encode _
  rcases List.mem_cons.mp hl with rfl | hl
  · rw [← Line.word.inj he] at op; revert op; decide
  · obtain rfl := List.mem_singleton.mp hl
    rw [← Line.word.inj he] at op; revert op; decide

theorem witness_HandlersCommute :
    ∀ s ∈ [withDatum 1#16 ticking, withDatum 1#16 { ticking with params := ⟨1, 8, 64, .w8⟩, count := 1#8 }],
      s.params.legal = true ∧ s.ringInv ∧ dispatchable .tick s = true ∧ dispatchable .rx s = true := by decide

theorem witness_WhoChangesGateState :
    runs .isrTick ticking ∧ runs .evTick { ticking with tickPend := false } ∧ runs .isrRx (withDatum 1#16 (armed base)) ∧
    runs (.evRx 1#16) base ∧ runs (.irqBind .tick) base ∧ runs (.irqBind .rx) base :=
  ⟨⟨_, rfl⟩, ⟨_, rfl⟩, ⟨_, rfl⟩, ⟨_, rfl⟩, ⟨_, rfl⟩, ⟨_, rfl⟩⟩

theorem witness_WhoChangesRingState :
    runs .clkGetMs base ∧ runs .rbPop (ring 4 1 0 1 []) ∧ runs .isrRx (withDatum 1#16 (armed base)) :=
  ⟨⟨_, rfl⟩, ⟨_, rfl⟩, ⟨_, rfl⟩⟩

theorem witness_ExactlyCommandsAreAnswered :
    happens (.port 0x10000000#32) base ∧ happens (.port 0x80000000#32) base ∧
    hostReady base = true ∧ base.params.legal = true ∧ base.ringInv ∧ runs .evTick ticking ∧
    Instr.evTick.cls ≠ .hostCommand := ⟨⟨_, rfl⟩, ⟨_, rfl⟩, by decide, by decide, by decide, ⟨_, rfl⟩, by decide⟩

theorem witness_ReadsAreIdempotent :
    runs .rbPeek (ring 4 1 0 1 []) ∧ runs .rbPeek base ∧ runs .clkStatus base := ⟨⟨_, rfl⟩, ⟨_, rfl⟩, ⟨_, rfl⟩⟩

/-- A fair run: the waiting tick is served by the first line, and then the host reads the counter for ever. -/
def fairLines : Nat → Line
  | 0 => .word 0x90000000#32
  | _ + 1 => .word 0x23000000#32

/-- Its states. -/
def fairStates : Nat → State
  | 0 => ticking
  | 1 => { ticking with acc := 1000#32, tickPend := false }
  | _ + 2 => { ticking with acc := 1000#32, tickPend := false, resp := some ⟨.ok, 1000#32⟩ }

theorem witness_FairDispatchServesPending :
    InfiniteRun fairLines fairStates ∧ (∀ m, (fairLines m).layerA = true) ∧ WeaklyFair .tick fairLines fairStates ∧
    (∀ m, 0 ≤ m → (fairStates m).ie = true) ∧ bound (fairStates 0) .tick = true ∧
    pending (fairStates 0) .tick = true ∧ (fairStates 0).micro.ctx = .main := by
  refine ⟨?_, ?_, ?_, ?_, rfl, rfl, rfl⟩
  · intro k
    match k with
    | 0 => rfl
    | 1 => rfl
    | _ + 2 => rfl
  · intro m; cases m <;> rfl
  · intro k always
    have off : dispatchable .tick (fairStates (k + 1)) = false := by cases k <;> rfl
    exact absurd (always (k + 1) (Nat.le_succ k)) (by simp [off])
  · intro m _
    match m with
    | 0 => rfl
    | 1 => rfl
    | _ + 2 => rfl

theorem witness_StepKeepsParametersAndScript : ∃ t, step popping = .next t := ⟨_, rfl⟩

theorem witness_StepKeepsStorageWellFormed :
    receiving.params.legal = true ∧ receiving.dataInv ∧ ∃ t, step receiving = .next t :=
  ⟨by decide, by decide, _, rfl⟩

theorem witness_StepKeepsGate : receiving.gateInv ∧ popping.gateInv ∧ (∃ t, step receiving = .next t) := by
  refine ⟨?_, ?_, _, rfl⟩
  · simp [State.gateInv, receiving, lastIsrMicro, armed, Micro.idle]
  · simp [State.gateInv, popping, lastMicro, inBracket, bracketed, ring, base, State.resetWith, Micro.idle]

theorem witness_StepKeepsRingCoherent :
    (popping.params.legal = true ∧ popping.ringCoherent ∧ ∃ t, step popping = .next t) ∧
    (receiving.params.legal = true ∧ receiving.ringCoherent ∧ ∃ t, step receiving = .next t) := by
  refine ⟨⟨by decide, ?_, _, rfl⟩, by decide, ?_, _, rfl⟩
  · simp [State.ringCoherent, ringInPop, popping, ring, base, State.resetWith, Micro.idle]
  · simp [State.ringCoherent, ringInRxHandler, receiving, ring, armed, base, State.resetWith, Micro.idle]

theorem witness_StepKeepsClockCoherent :
    programming.params.legal = true ∧ programming.gateInv ∧ programming.clockCoherent ∧ ∃ t, step programming = .next t := by
  refine ⟨by decide, ?_, ?_, _, rfl⟩
  · simp [State.gateInv, programming, lastMicro, inBracket, bracketed, base, State.resetWith, Micro.idle,
      DataPath.lanes, DataPath.cntLanes, DataPath.bits]
  · show clockInSetPeriod programming 0x140#16 5
    unfold clockInSetPeriod; decide

theorem witness_OperationsInProgressGoOn :
    ∀ s ∈ [popping, receiving], s.params.legal = true ∧ s.gateInv ∧ s.ringCoherent ∧ hostReady s = false := by
  have pop := witness_StepKeepsRingCoherent.1
  have rx := witness_StepKeepsRingCoherent.2
  have gate := witness_StepKeepsGate
  intro s hs
  rcases List.mem_cons.mp hs with rfl | hs
  · exact ⟨pop.1, gate.2.1, pop.2.1, rfl⟩
  · obtain rfl := List.mem_singleton.mp hs
    exact ⟨rx.1, gate.1, rx.2.1, rfl⟩

theorem witness_MicroSequenceEqualsCommand :
    ∀ i ∈ [Instr.rbPop, .clkGetMs, .clkSetPeriod 0x140#16, .critEnter], i.cls = .hostCommand ∧ hostReady base = true ∧
      (nextOf (exec i base)).isSome = true := by decide

theorem witness_MicroHandlerEqualsDispatch :
    ticking.params.legal = true ∧ ticking.ringInv ∧ runs .isrTick ticking ∧
    runs .isrRx (withDatum 1#16 (armed (ring 4 3 3 0 []))) ∧ (ring 4 3 3 0 []).ringInv :=
  ⟨by decide, by decide, ⟨_, rfl⟩, ⟨_, rfl⟩, by decide⟩

theorem witness_MainContextWaitsForHandler :
    receiving.micro.ctx = .isr .rx 6 ∧ Line.micro ≠ .reset ∧ happens .micro receiving ∧
    happens (.word 0x81000041#32) receiving := ⟨rfl, by decide, ⟨_, rfl⟩, ⟨_, rfl⟩⟩

/-- At the clearing micro-step, and at the return with a request raised after it. -/
theorem witness_HandlersDoNotNest :
    receiving.micro.ctx = .isr .rx 6 ∧ happens .micro receiving ∧ ticking.srcEn = true ∧
    clearIsrMicro ticking.params.wDp .tick = 6 ∧ happens .micro { ticking with micro.ctx := .isr .tick 6 } ∧
    lastIsrMicro ticking.params.wDp .tick = 7 ∧ happens .micro { ticking with micro.ctx := .isr .tick 7 } ∧
    clearIsrMicro receiving.params.wDp .rx = 7 ∧ lastIsrMicro receiving.params.wDp .rx = 8 :=
  ⟨rfl, ⟨_, rfl⟩, rfl, rfl, ⟨_, rfl⟩, rfl, ⟨_, rfl⟩, rfl, rfl⟩

theorem witness_HandlerStartsExactlyWithIe :
    happens (.enter .tick) ticking ∧ happens (.word (dispatchWord .tick)) ticking := ⟨⟨_, rfl⟩, ⟨_, rfl⟩⟩

/-- D-LB-2: `CLK.GETMS` with the handler in the gap after micro-step 6. -/
def tornLines : List Line :=
  List.replicate 6 .micro ++ [.enter .tick] ++ List.replicate 7 .micro ++ [.micro]

theorem witness_NoTornRead :
    ∃ t, hostReady { ticking with acc := 0xFF#32, tickPeriodMs := 1#32 } = true ∧
      runLines (.start 0x23000000#32 :: tornLines) { ticking with acc := 0xFF#32, tickPeriodMs := 1#32 } = .next t ∧
      t.micro.main = .idle ∧ t.resp = some ⟨.ok, 0xFF#32⟩ ∧ t.acc = 0x100#32 :=
  ⟨_, by decide, rfl, by decide, by decide, by decide⟩

/-- The last hypothesis of the same statement: after no shorter piece of the lines is the command done. -/
theorem witness_NoTornRead_pieces (ls₁ ls₂ : List Line) (u : State) (split : tornLines = ls₁ ++ ls₂) (rest : ls₂ ≠ [])
    (run : runLines (.start 0x23000000#32 :: ls₁) { ticking with acc := 0xFF#32, tickPeriodMs := 1#32 } = .next u) :
    u.micro.main ≠ .idle := by
  have all : ∀ k < tornLines.length, (nextOf (runLines (.start 0x23000000#32 :: tornLines.take k)
      { ticking with acc := 0xFF#32, tickPeriodMs := 1#32 })).map (fun t => t.micro.main) ≠ some .idle := by decide
  have len : ls₁.length < tornLines.length := by
    rw [split, List.length_append]
    exact Nat.lt_add_of_pos_right (List.length_pos_of_ne_nil rest)
  have piece := all ls₁.length len
  rw [show tornLines.take ls₁.length = ls₁ by rw [split, List.take_left], run] at piece
  exact fun idle => piece (congrArg some idle)

/-- D-LB-3: a pop with the receive handler taken in its first gap. -/
def popLines : List Line := [.start 0x10000000#32, .word 0x91000000#32] ++ List.replicate 9 .micro

theorem witness_MicroRunsRefineCommandRuns :
    (∀ l ∈ popLines, l = .micro ∨ l = .start 0x10000000#32 ∨ l = .word 0x91000000#32) ∧
    isTraceWord 0x91000000#32 = true ∧
    ∃ t, runLines popLines (withDatum 0x43#16 (armed (ring 4 2 0 2 [(0, 0x41#16), (1, 0x42#16)]))) = .next t ∧
      hostReady t = true ∧ (t.head, t.tail, t.count) = (3#8, 1#8, 2#8) ∧ t.resp = some ⟨.ok, 0x41#32⟩ :=
  ⟨by decide, by decide, _, rfl, by decide, by decide, by decide⟩

/-- D-LB-3 with the handler entered and run micro-step by micro-step in the first gap, a datum arriving as a step. -/
def popHandlerLines (before after : Nat) : List Line :=
  [.start 0x10000000#32, .enter .rx] ++ List.replicate before .micro ++ [.word 0x81000044#32] ++
    List.replicate after .micro ++ List.replicate 9 .micro

/-- Its start: two elements, a datum waiting. -/
def popHandlerStart : State := withDatum 0x43#16 (armed (ring 4 2 0 2 [(0, 0x41#16), (1, 0x42#16)]))

/-- The datum arrives where it is lost (before micro-step 6), and where it is kept (before micro-step 8). -/
theorem witness_LayerBRefinesLayerA :
    (∀ l ∈ popHandlerLines 5 3 ++ popHandlerLines 7 1,
      l = .micro ∨ l = .start 0x10000000#32 ∨ l = .enter .rx ∨ l = .word 0x81000044#32) ∧
    isTraceWord 0x81000044#32 = true ∧ hostReady popHandlerStart = true ∧
    (∃ t, runLines (popHandlerLines 5 3) popHandlerStart = .next t ∧ hostReady t = true ∧
      (t.head, t.tail, t.count, t.rxPend, t.rxData) = (3#8, 1#8, 2#8, false, 0x43#16) ∧
      receiveQuiet (popHandlerLines 5 3) popHandlerStart = false) ∧
    ∃ t, runLines (popHandlerLines 7 1) popHandlerStart = .next t ∧ hostReady t = true ∧
      (t.head, t.tail, t.count, t.rxPend, t.rxData) = (3#8, 1#8, 2#8, true, 0x44#16) ∧
      receiveQuiet (popHandlerLines 7 1) popHandlerStart = true :=
  ⟨by decide, by decide, by decide, ⟨_, rfl, by decide, by decide, by decide⟩, _, rfl, by decide, by decide, by decide⟩

end Sys2Proof.Tests
end

section
/-! What no step writes but for the advance of the pointer (R6, R21): the parameters, the script and the script pointer,
held together as the setting of a state. One frame lemma per micro-sequence of Layer B, then one per line. -/

namespace Sys2Proof.Machine

variable {s t : State} {u : Nat}

/-- What performing a line leaves as it was: the parameters (R5), the script (R72) and the script pointer (R21). -/
def State.setting (s : State) : Params × List Line × Nat := (s.params, s.script, s.sp)

theorem setting_eq_iff :
    t.setting = s.setting ↔ t.params = s.params ∧ t.script = s.script ∧ t.sp = s.sp := by
  simp [State.setting]

/-! ## Layer A -/

theorem Effect.keeps_setting {i : Instr} (h : Effect s i t) : t.setting = s.setting := by
  cases h <;> rfl

/-! ## The micro-sequences of Layer B -/

theorem microCritEnter_keeps_setting (h : microCritEnter u s = .next t) : t.setting = s.setting := by
  unfold microCritEnter at h
  split at h <;> cases h <;> rfl

theorem microCritExit_keeps_setting {token : Bool} (h : microCritExit token u s = .next t) : t.setting = s.setting := by
  unfold microCritExit at h
  split at h <;> cases h <;> rfl

theorem microIrqBind_keeps_setting {ch : Channel} (h : microIrqBind ch u s = .next t) : t.setting = s.setting := by
  unfold microIrqBind at h
  split at h <;> cases h <;> cases ch <;> rfl

/-- The read of `BUF` (5) may stop, and the response (9) is one of two. -/
theorem microRbPop_keeps_setting (h : microRbPop u s = .next t) : t.setting = s.setting := by
  unfold microRbPop at h
  split at h
  case h_5 | h_9 => split at h <;> cases h <;> rfl
  all_goals cases h <;> rfl

/-- The read of `BUF` (5) may stop, and the response (7) is one of two. -/
theorem microRbPeek_keeps_setting (h : microRbPeek u s = .next t) : t.setting = s.setting := by
  unfold microRbPeek at h
  split at h
  case h_5 | h_7 => split at h <;> cases h <;> rfl
  all_goals cases h <;> rfl

theorem microPredicate_keeps_setting {cmd : Instr} {answer : Byte → Bool} (h : microPredicate cmd answer u s = .next t) :
    t.setting = s.setting := by
  unfold microPredicate at h
  split at h <;> cases h <;> rfl

theorem microSnapshot_keeps_setting {cmd : Instr} {reg : Word} (h : microSnapshot cmd reg u s = .next t) :
    t.setting = s.setting := by
  simp only [microSnapshot] at h
  split_ifs at h <;> cases h <;> rfl

theorem microClkStatus_keeps_setting (h : microClkStatus u s = .next t) : t.setting = s.setting := by
  unfold microClkStatus at h
  split at h <;> cases h <;> rfl

theorem microClkInit_keeps_setting (h : microClkInit u s = .next t) : t.setting = s.setting := by
  unfold microClkInit at h
  split at h <;> cases h <;> rfl

theorem microSetPeriod_keeps_setting {cmd : Instr} {p : Half} (h : microSetPeriod cmd p u s = .next t) :
    t.setting = s.setting := by
  simp only [microSetPeriod] at h
  split_ifs at h <;> cases h <;> rfl

theorem microIsrTick_keeps_setting (h : microIsrTick u s = .next t) : t.setting = s.setting := by
  simp only [microIsrTick] at h
  split_ifs at h <;> cases h <;> rfl

/-- The write of `BUF` (4) may stop. -/
theorem microIsrRx_keeps_setting (h : microIsrRx u s = .next t) : t.setting = s.setting := by
  unfold microIsrRx at h
  split at h
  case h_4 =>
    split at h <;> cases h
    obtain ⟨-, rfl⟩ := writeBuf_ok_iff.mp ‹_›
    rfl
  all_goals cases h <;> rfl

/-! ## A micro-step, a line, a step -/

theorem microMain_keeps_setting {cmd : Instr} (h : microMain cmd u s = .next t) : t.setting = s.setting := by
  cases cmd with
  | critEnter => exact microCritEnter_keeps_setting h
  | critExit token => exact microCritExit_keeps_setting h
  | irqBind ch => exact microIrqBind_keeps_setting h
  | rbPop => exact microRbPop_keeps_setting h
  | rbPeek => exact microRbPeek_keeps_setting h
  | rbIsEmpty | rbIsFull | rbAvail =>
    unfold microMain at h
    exact microPredicate_keeps_setting h
  | clkInit => exact microClkInit_keeps_setting h
  | clkSetPeriod | clkStop => exact microSetPeriod_keeps_setting h
  | clkGetMs | clkGetPeriod => exact microSnapshot_keeps_setting h
  | clkStatus => exact microClkStatus_keeps_setting h
  | evTick | evRx | evEnv | isrTick | isrRx => cases h

theorem microStep_keeps_setting (h : microStep s = .next t) : t.setting = s.setting := by
  unfold microStep at h
  split at h
  · exact microIsrTick_keeps_setting h
  · exact microIsrRx_keeps_setting h
  · split at h
    · cases h
    · exact microMain_keeps_setting h

/-- Performing a line moves no pointer: only `advance` does (R21). -/
theorem performLine_keeps_setting {l : Line} (h : performLine l s = .next t) : t.setting = s.setting := by
  cases LineEffect.of_perform h with
  | command _ _ _ effect => exact effect.keeps_setting
  | event _ _ effect => exact effect.keeps_setting
  | port _ _ _ effect => exact effect.keeps_setting
  | micro next => exact microStep_keeps_setting next
  | illegal | portIllegal | reset | start | startIllegal | enter => rfl

/-- Settles O47: performing the line keeps the setting, and the step then moves the pointer by one. -/
theorem stepKeepsParametersAndScript : Obligations.StepKeepsParametersAndScript := by
  intro s t h
  obtain ⟨l, v, -, performed, rfl⟩ := step_next_iff.mp h
  obtain ⟨params, script, sp⟩ := setting_eq_iff.mp (performLine_keeps_setting performed)
  exact ⟨params, script, congrArg (· + 1) sp⟩

end Sys2Proof.Machine
end

section
/-! What every step keeps of the ring storage (R27, R40, R57): the storage of a state is read as its parameters, `BUF` and
`RX_DATA`; all but the receive event, the push and reset leave it alone, and these three give it values of `W_T` bits. -/

namespace Sys2Proof.Machine

variable {s t : State} {u : Nat}

/-- The fields the storage invariant speaks of: the parameters (R5), `BUF` (R27) and `RX_DATA` (R33). -/
def State.storage (s : State) : Params × Memory × Elem := (s.params, s.buf, s.rxData)

/-- The storage invariant depends on the storage alone. -/
theorem dataInv_of_storage_eq (same : t.storage = s.storage) (inv : s.dataInv) : t.dataInv := by
  simp only [State.storage, Prod.mk.injEq] at same
  obtain ⟨params, buf, rxData⟩ := same
  simpa only [State.dataInv, params, buf, rxData] using inv

/-! ## The three writers -/

/-- A write cuts the value to `W_T` bits and stops at an index that is no element (R57). -/
theorem writeBuf_keeps_dataInv {i : Nat} {v : Elem} (legal : s.params.legal = true) (inv : s.dataInv)
    (h : writeBuf s i v = .ok t) : t.dataInv := by
  obtain ⟨-, -, -, width, -⟩ := (Params.legal_iff _).mp legal
  obtain ⟨index, rfl⟩ := writeBuf_ok_iff.mp h
  obtain ⟨canonical, entries, datum⟩ := inv
  refine ⟨Memory.wf_write _ _ canonical, fun e mem => ?_, datum⟩
  rcases Memory.mem_write mem with rfl | old
  · exact ⟨index, fitElem_lt width v⟩
  · exact entries e old

/-- A datum latched by a receive event is cut to `W_T` bits (R133). -/
theorem latch_keeps_dataInv (d : Elem) (legal : s.params.legal = true) (inv : s.dataInv) :
    State.dataInv { s with rxData := fitElem s.params.wT d } := by
  obtain ⟨-, -, -, width, -⟩ := (Params.legal_iff _).mp legal
  obtain ⟨canonical, entries, -⟩ := inv
  exact ⟨canonical, entries, fitElem_lt width d⟩

/-- Reset lists no element and clears `RX_DATA` (R161). -/
theorem resetBlock_dataInv (s : State) : (resetBlock s).dataInv :=
  ⟨rfl, fun _ mem => (List.not_mem_nil mem).elim, Nat.two_pow_pos _⟩

/-! ## Layer A -/

theorem Effect.keeps_dataInv {i : Instr} (h : Effect s i t) (legal : s.params.legal = true) (inv : s.dataInv) :
    t.dataInv := by
  cases h with
  | rxEvent d => exact dataInv_of_storage_eq rfl (latch_keeps_dataInv d legal inv)
  | rxOverrun d =>
    by_cases old : (rxStored s || Config.overrunKeepsOld s.draws) = true
    · exact dataInv_of_storage_eq (by simp [State.storage, old]) inv
    · exact dataInv_of_storage_eq (by simp [State.storage, old]) (latch_keeps_dataInv d legal inv)
  | rxPush _ _ index =>
    have written := writeBuf_keeps_dataInv (v := s.rxData) legal inv (writeBuf_ok_iff.mpr ⟨index, rfl⟩)
    exact dataInv_of_storage_eq rfl written
  | _ => exact dataInv_of_storage_eq rfl inv

/-! ## Layer B -/

theorem microSnapshot_keeps_storage {cmd : Instr} {reg : Word} (h : microSnapshot cmd reg u s = .next t) :
    t.storage = s.storage := by
  simp only [microSnapshot] at h
  split_ifs at h <;> cases h <;> rfl

theorem microSetPeriod_keeps_storage {cmd : Instr} {p : Half} (h : microSetPeriod cmd p u s = .next t) :
    t.storage = s.storage := by
  simp only [microSetPeriod] at h
  split_ifs at h <;> cases h <;> rfl

/-- No command writes the storage: the consumer side only reads `BUF` (R91). -/
theorem microMain_keeps_storage {cmd : Instr} (h : microMain cmd u s = .next t) : t.storage = s.storage := by
  cases cmd with
  | critEnter | critExit | rbIsEmpty | rbIsFull | rbAvail | clkInit | clkStatus =>
    simp only [microMain, microCritEnter, microCritExit, microPredicate, microClkInit, microClkStatus] at h
    split at h <;> cases h <;> rfl
  | irqBind ch =>
    simp only [microMain, microIrqBind] at h
    split at h <;> cases h <;> cases ch <;> rfl
  | rbPop =>
    simp only [microMain, microRbPop] at h
    split at h
    case h_5 | h_9 => split at h <;> cases h <;> rfl
    all_goals cases h <;> rfl
  | rbPeek =>
    simp only [microMain, microRbPeek] at h
    split at h
    case h_5 | h_7 => split at h <;> cases h <;> rfl
    all_goals cases h <;> rfl
  | clkSetPeriod | clkStop => exact microSetPeriod_keeps_storage h
  | clkGetMs | clkGetPeriod => exact microSnapshot_keeps_storage h
  | evTick | evRx | evEnv | isrTick | isrRx => cases h

theorem microIsrTick_keeps_storage (h : microIsrTick u s = .next t) : t.storage = s.storage := by
  simp only [microIsrTick] at h
  split_ifs at h <;> cases h <;> rfl

/-- Line 4 of `ISR.RX` writes `BUF` at the index it has read; the others leave the storage alone (R91). -/
theorem microIsrRx_storage (h : microIsrRx u s = .next t) :
    t.storage = s.storage ∨
      ∃ v, writeBuf s s.micro.isrH.toNat s.rxData = .ok v ∧ t.storage = v.storage := by
  unfold microIsrRx at h
  split at h
  case h_4 =>
    split at h
    case h_1 v written => cases h; exact .inr ⟨v, written, rfl⟩
    case h_2 => cases h
  all_goals cases h <;> exact .inl rfl

theorem microStep_keeps_dataInv (legal : s.params.legal = true) (inv : s.dataInv) (h : microStep s = .next t) :
    t.dataInv := by
  unfold microStep at h
  split at h
  · exact dataInv_of_storage_eq (microIsrTick_keeps_storage h) inv
  · obtain same | ⟨v, written, same⟩ := microIsrRx_storage h
    · exact dataInv_of_storage_eq same inv
    · exact dataInv_of_storage_eq same (writeBuf_keeps_dataInv legal inv written)
  · split at h
    · cases h
    · exact dataInv_of_storage_eq (microMain_keeps_storage h) inv

/-! ## A line, a step -/

theorem LineEffect.keeps_dataInv {l : Line} (h : LineEffect s l t) (legal : s.params.legal = true) (inv : s.dataInv) :
    t.dataInv := by
  cases h with
  | command _ _ _ effect => exact effect.keeps_dataInv legal inv
  | event _ _ effect => exact effect.keeps_dataInv legal inv
  | port _ _ _ effect => exact effect.keeps_dataInv legal inv
  | reset => exact resetBlock_dataInv s
  | micro next => exact microStep_keeps_dataInv legal inv next
  | illegal | portIllegal | start | startIllegal | enter => exact dataInv_of_storage_eq rfl inv

/-- Settles O48: the line performed keeps the invariant, and the pointer is no part of the storage. -/
theorem stepKeepsStorageWellFormed : Obligations.StepKeepsStorageWellFormed := by
  intro s t legal inv h
  obtain ⟨l, v, -, performed, rfl⟩ := step_next_iff.mp h
  exact dataInv_of_storage_eq rfl ((LineEffect.of_perform performed).keeps_dataInv legal inv)

end Sys2Proof.Machine
end

section
/-! What each operation of Layer A writes (R39), read off the list of effects: the clock registers, the gate elements and
the ring elements. -/

namespace Sys2Proof.Machine

variable {s t : State} {i : Instr}

/-! ## The clock registers (R23 to R25) -/

/-- A programming that goes ahead has a count (R103), and the others leave the Off state (R104). -/
theorem Effect.keeps_clockInv (h : Effect s i t) (inv : s.clockInv) : t.clockInv := by
  cases h with
  | setPeriod _ count => exact .inl ⟨rfl, count, rfl⟩
  | setPeriodOff | setPeriodRefused | stop => exact .inr ⟨rfl, rfl, rfl⟩
  | _ => exact inv

/-- A period is at most that of the largest count at one hertz (R101). -/
theorem periodMs_le (f : Nat) (p : Half) : (periodMs f p).toNat ≤ 65535000 := by
  have count := p.isLt
  calc (periodMs f p).toNat = p.toNat * 1000 / f := periodMs_toNat f p
    _ ≤ p.toNat * 1000 := Nat.div_le_self _ _
    _ ≤ 65535000 := by omega

theorem period_le_of_clockInv (inv : s.clockInv) : s.tickPeriodMs.toNat ≤ 65535000 := by
  obtain ⟨-, -, period⟩ | ⟨-, -, period⟩ := inv
  · exact period ▸ periodMs_le _ _
  · simp [period]

/-- Settles O35: the invariant is kept by every effect and bounds the period. -/
theorem clockRegistersStayLegal : Obligations.ClockRegistersStayLegal := by
  intro i s t _ inv h
  have kept := (Effect.of_exec h).keeps_clockInv inv
  exact ⟨kept, period_le_of_clockInv kept⟩

/-! ## The gate elements (R31 to R36) -/

theorem Effect.tickPend_cases (h : Effect s i t) :
    (i = .evTick ∧ t.tickPend = true) ∨ (i = .isrTick ∧ t.tickPend = false) ∨ t.tickPend = s.tickPend := by
  cases h with
  | tickEvent => exact .inl ⟨rfl, rfl⟩
  | tick => exact .inr (.inl ⟨rfl, rfl⟩)
  | _ => exact .inr (.inr rfl)

theorem Effect.rxPend_cases (h : Effect s i t) :
    ((∃ d, i = .evRx d) ∧ t.rxPend = true) ∨ (i = .isrRx ∧ t.rxPend = false) ∨ t.rxPend = s.rxPend := by
  cases h with
  | rxEvent d | rxOverrun d => exact .inl ⟨⟨d, rfl⟩, rfl⟩
  | rxDrop | rxPush => exact .inr (.inl ⟨rfl, rfl⟩)
  | _ => exact .inr (.inr rfl)

theorem Effect.bound_cases (h : Effect s i t) (ch : Channel) :
    (i = .irqBind ch ∧ bound t ch = true) ∨ bound t ch = bound s ch := by
  cases h with
  | bindTick | bindRx => cases ch <;> simp [bound]
  | _ => exact .inr rfl

theorem Effect.keeps_rxData (h : Effect s i t) (notRx : ∀ d, i ≠ .evRx d) : t.rxData = s.rxData := by
  cases h with
  | rxEvent d | rxOverrun d => exact absurd rfl (notRx d)
  | _ => rfl

theorem Effect.keeps_inputs (h : Effect s i t) (notEnv : ∀ ok ti, i ≠ .evEnv ok ti) :
    t.envTimeInvalid = s.envTimeInvalid ∧ t.envSrcOk = s.envSrcOk := by
  cases h with
  | envEvent ok ti => exact absurd rfl (notEnv ok ti)
  | _ => exact ⟨rfl, rfl⟩

/-- Settles O42: each element is changed by its writers alone, to the value they write. -/
theorem whoChangesGateState : Obligations.WhoChangesGateState := by
  intro i s t h
  have effect := Effect.of_exec h
  have tick := effect.tickPend_cases
  have rx := effect.rxPend_cases
  have boundTick : (i = .irqBind .tick ∧ t.boundTick = true) ∨ t.boundTick = s.boundTick := effect.bound_cases .tick
  have boundRx : (i = .irqBind .rx ∧ t.boundRx = true) ∨ t.boundRx = s.boundRx := effect.bound_cases .rx
  refine ⟨?_, ?_, ?_, ?_, ?_, ?_, ?_, ?_, effect.keeps_rxData, effect.keeps_inputs⟩ <;> grind

/-! ## The ring elements (R27 to R29) -/

theorem Effect.keeps_buf_head (h : Effect s i t) (notPush : i ≠ .isrRx) : t.buf = s.buf ∧ t.head = s.head := by
  cases h with
  | rxDrop | rxPush => exact absurd rfl notPush
  | _ => exact ⟨rfl, rfl⟩

theorem Effect.keeps_tail (h : Effect s i t) (notPop : i ≠ .rbPop) : t.tail = s.tail := by
  cases h with
  | pop => exact absurd rfl notPop
  | _ => rfl

theorem Effect.keeps_count (h : Effect s i t) (notPush : i ≠ .isrRx) (notPop : i ≠ .rbPop) : t.count = s.count := by
  cases h with
  | rxPush => exact absurd rfl notPush
  | pop => exact absurd rfl notPop
  | _ => rfl

/-- Settles O43: the frames of the ring elements (R90). -/
theorem whoChangesRingState : Obligations.WhoChangesRingState := by
  intro i s t h
  have effect := Effect.of_exec h
  exact ⟨effect.keeps_buf_head, effect.keeps_tail, effect.keeps_count⟩

end Sys2Proof.Machine
end

section
/-! A word line runs the operation the word decodes to (R21, R72). -/

namespace Sys2Proof.Machine

variable {s : State} {w : Word} {i : Instr}

/-- A host command needs the main context free (R141); events and dispatch steps do not. -/
theorem performWord_eq_exec (decodes : decode s.params.wT w = .ok i)
    (ready : i.cls = .hostCommand → hostReady s = true) : performWord w s = exec i s := by
  unfold performWord
  by_cases host : i.cls = .hostCommand
  · have port : isTraceWord w = false := by simp [isTraceWord_of_decode decodes, host]
    simp [port, performPort, ready host, decodeHost_some_iff.mpr ⟨decodes, host⟩]
  · have trace : isTraceWord w = true := by simp [isTraceWord_of_decode decodes, host]
    simp [trace, decodes]

/-- No operation moves the script pointer, so advancing sets it to the next line (R21). -/
theorem advance_exec (i : Instr) (s : State) :
    advance (exec i s) = (match exec i s with
      | .next t => .next { t with sp := s.sp + 1 }
      | .fault f => .fault f
      | .refused r => .refused r) := by
  cases h : exec i s with
  | next t =>
    obtain ⟨-, -, sp⟩ := setting_eq_iff.mp (Effect.of_exec h).keeps_setting
    simp only [advance, sp]
  | fault | refused => rfl

/-- Settles O7: the line performed is the operation, and the pointer advances from where it was. -/
theorem stepRunsDecodedInstruction : Obligations.StepRunsDecodedInstruction := by
  intro s w i line decodes ready
  calc step s = advance (performWord w s) := by simp only [step, fetchLine, line, performLine]
    _ = advance (exec i s) := by rw [performWord_eq_exec decodes ready]
    _ = _ := advance_exec i s

end Sys2Proof.Machine
end

section
/-! What a micro-step of Layer B can do (R91, R112), said once: `MainEffect s cmd u t` lists the micro-steps of the commands,
`IsrEffect s ch u t` those of the two handlers. Later proofs take a micro-step apart with `microStep_next`. -/

namespace Sys2Proof.Machine

variable {s t : State} {u : Nat} {cmd : Instr}

/-! ## The commands -/

/-- The response the last micro-step of a command drives, from what the earlier ones have read (R91, R112). -/
def answerOf (s : State) : Instr → Response
  | .critEnter => ⟨.ok, BitVec.ofNat 32 (bitNat s.micro.saved)⟩
  | .critExit _ | .irqBind _ => ⟨.ok, 0#32⟩
  | .rbPop | .rbPeek => if s.micro.c = 0#8 then ⟨.empty, 0#32⟩ else ⟨.ok, s.micro.v.setWidth 32⟩
  | .rbIsEmpty => ⟨.ok, BitVec.ofNat 32 (bitNat (decide (s.micro.c = 0#8)))⟩
  | .rbIsFull => ⟨.ok, BitVec.ofNat 32 (bitNat (decide (s.micro.c.toNat = s.params.n)))⟩
  | .rbAvail => ⟨.ok, BitVec.ofNat 32 (bitNat (decide (0 < s.micro.c.toNat)))⟩
  | .clkInit => ⟨.ok, BitVec.ofNat 32 (bitNat s.fault)⟩
  | .clkSetPeriod p => ⟨.ok, BitVec.ofNat 32 (bitNat (decide (p = 0#16) || decide (s.micro.q ≠ 0#16)))⟩
  | .clkStop => ⟨.ok, 1#32⟩
  | .clkGetMs | .clkGetPeriod => ⟨.ok, s.micro.tmp⟩
  | .clkStatus => ⟨.ok, statusWord s.micro.b1 s.micro.b0⟩
  | .evTick | .evRx _ | .evEnv _ _ | .isrTick | .isrRx => ⟨.err, 0#32⟩

/-- The period a command programs (R112): `CLK.STOP` is `CLK.SETPERIOD 0`. -/
def programs : Instr → Option Half
  | .clkSetPeriod p => some p
  | .clkStop => some 0#16
  | _ => none

/-- The register a command reads lane by lane (R112). -/
def snapshots (s : State) : Instr → Option Word
  | .clkGetMs => some s.acc
  | .clkGetPeriod => some s.tickPeriodMs
  | _ => none

/-- Every micro-step of every command (R91, R112). -/
inductive MainEffect (s : State) : Instr → Nat → State → Prop where
  | critEnter : MainEffect s .critEnter 1
      { s with ie := false, resp := none, micro.saved := s.ie, micro.main := .busy .critEnter 2 }
  | critExit (token : Bool) : MainEffect s (.critExit token) 1
      { s with ie := token, resp := none, micro.main := .busy (.critExit token) 2 }
  | bindTick : MainEffect s (.irqBind .tick) 1
      { s with boundTick := true, resp := none, micro.main := .busy (.irqBind .tick) 2 }
  | bindRx : MainEffect s (.irqBind .rx) 1
      { s with boundRx := true, resp := none, micro.main := .busy (.irqBind .rx) 2 }
  | predicate {cmd : Instr} (reads : cmd = .rbIsEmpty ∨ cmd = .rbIsFull ∨ cmd = .rbAvail) : MainEffect s cmd 1
      { s with resp := none, micro.c := s.count, micro.main := .busy cmd 2 }
  | init : MainEffect s .clkInit 1
      { s with fault := s.envTimeInvalid, resp := none, micro.main := .busy .clkInit 2 }
  | mask {cmd : Instr} (brackets : bracketed cmd = true) : MainEffect s cmd 1
      { s with ie := false, resp := none, micro.saved := s.ie, micro.main := .busy cmd 2 }
  | ringCount {cmd : Instr} (ring : cmd = .rbPop ∨ cmd = .rbPeek) : MainEffect s cmd 2
      { s with resp := none, micro.c := s.count, micro.main := .busy cmd 3 }
  | ringEmpty {cmd : Instr} (ring : cmd = .rbPop ∨ cmd = .rbPeek) (empty : s.micro.c = 0#8) : MainEffect s cmd 3
      { s with resp := none, micro.main := .busy cmd (lastMicro s.params.wDp cmd - 1) }
  | ringOccupied {cmd : Instr} (ring : cmd = .rbPop ∨ cmd = .rbPeek) (occupied : s.micro.c ≠ 0#8) : MainEffect s cmd 3
      { s with resp := none, micro.main := .busy cmd 4 }
  | ringTail {cmd : Instr} (ring : cmd = .rbPop ∨ cmd = .rbPeek) : MainEffect s cmd 4
      { s with resp := none, micro.t := s.tail, micro.main := .busy cmd 5 }
  | ringRead {cmd : Instr} (ring : cmd = .rbPop ∨ cmd = .rbPeek) (index : s.micro.t.toNat < s.params.n) :
      MainEffect s cmd 5
        { s with resp := none, micro.v := elemAt s s.micro.t.toNat, micro.main := .busy cmd 6 }
  | popTail : MainEffect s .rbPop 6
      { s with tail := nextIndex s.params.n s.micro.t, resp := none, micro.main := .busy .rbPop 7 }
  | popCount : MainEffect s .rbPop 7
      { s with count := s.micro.c - 1#8, resp := none, micro.main := .busy .rbPop 8 }
  | statusFault : MainEffect s .clkStatus 2
      { s with resp := none, micro.b0 := s.fault, micro.main := .busy .clkStatus 3 }
  | statusEnable : MainEffect s .clkStatus 3
      { s with resp := none, micro.b1 := s.srcEn, micro.main := .busy .clkStatus 4 }
  | readLane {cmd : Instr} {reg : Word} (reads : snapshots s cmd = some reg) (i : Nat) (isLane : i < s.params.wDp.lanes) :
      MainEffect s cmd (2 + i)
        { s with
          resp := none
          micro.tmp := setLane32 s.params.wDp s.micro.tmp i (lane s.params.wDp reg.toNat i)
          micro.main := .busy cmd (2 + i + 1) }
  | disable {cmd : Instr} {p : Half} (writes : programs cmd = some p) : MainEffect s cmd 2
      { s with srcEn := false, resp := none, micro.main := .busy cmd 3 }
  | sample {cmd : Instr} {p : Half} (writes : programs cmd = some p) : MainEffect s cmd 3
      { s with
        resp := none
        micro.q := if p = 0#16 ∨ s.envSrcOk = false then 0#16 else p
        micro.main := .busy cmd 4 }
  | countLane {cmd : Instr} {p : Half} (writes : programs cmd = some p) (i : Nat) (isLane : i < s.params.wDp.cntLanes) :
      MainEffect s cmd (4 + i)
        { s with
          srcCnt := setLane16 s.params.wDp s.srcCnt i (lane s.params.wDp s.micro.q.toNat i)
          resp := none
          micro.main := .busy cmd (4 + i + 1) }
  | periodLane {cmd : Instr} {p : Half} (writes : programs cmd = some p) (i : Nat) (isLane : i < s.params.wDp.lanes) :
      MainEffect s cmd (4 + s.params.wDp.cntLanes + i)
        { s with
          tickPeriodMs := setLane32 s.params.wDp s.tickPeriodMs i
            (lane s.params.wDp (newPeriod s.params.fTick p s.micro.q).toNat i)
          resp := none
          micro.main := .busy cmd (4 + s.params.wDp.cntLanes + i + 1) }
  | enable {cmd : Instr} {p : Half} (writes : programs cmd = some p) :
      MainEffect s cmd (4 + s.params.wDp.cntLanes + s.params.wDp.lanes)
        { s with
          srcEn := if s.micro.q = 0#16 then s.srcEn else true
          resp := none
          micro.main := .busy cmd (4 + s.params.wDp.cntLanes + s.params.wDp.lanes + 1) }
  | unmask {cmd : Instr} {u : Nat} (brackets : bracketed cmd = true) (beforeLast : u + 1 = lastMicro s.params.wDp cmd) :
      MainEffect s cmd u
        { s with ie := s.micro.saved, resp := none, micro.main := .busy cmd (u + 1) }
  | answer {cmd : Instr} {u : Nat} (isLast : u = lastMicro s.params.wDp cmd) : MainEffect s cmd u
      { s with resp := some (answerOf s cmd), micro.main := .idle }

theorem MainEffect.of_microSnapshot {reg : Word} (reads : snapshots s cmd = some reg)
    (brackets : bracketed cmd = true) (last : lastMicro s.params.wDp cmd = 3 + s.params.wDp.lanes)
    (answers : answerOf s cmd = ⟨.ok, s.micro.tmp⟩) (h : microSnapshot cmd reg u s = .next t) :
    MainEffect s cmd u t := by
  simp only [microSnapshot] at h
  split_ifs at h with _ first lanes close done <;> cases h
  · exact first ▸ .mask brackets
  · obtain ⟨i, rfl⟩ := Nat.exists_eq_add_of_le (show 2 ≤ u by omega)
    simp only [Nat.add_sub_cancel_left]
    exact .readLane reads i (by omega)
  · exact .unmask brackets (by omega)
  · rw [respondWord, respond, ← answers]
    exact .answer (by omega)

theorem MainEffect.of_microSetPeriod {p : Half} (writes : programs cmd = some p) (brackets : bracketed cmd = true)
    (last : lastMicro s.params.wDp cmd = 6 + s.params.wDp.cntLanes + s.params.wDp.lanes)
    (answers : answerOf s cmd = ⟨.ok, BitVec.ofNat 32 (bitNat (decide (p = 0#16) || decide (s.micro.q ≠ 0#16)))⟩)
    (h : microSetPeriod cmd p u s = .next t) : MainEffect s cmd u t := by
  simp only [microSetPeriod] at h
  split at h
  · cases h
  split at h
  · cases h; subst u; exact .mask brackets
  split at h
  · cases h; subst u; exact .disable writes
  split at h
  · cases h; subst u; exact .sample writes
  split at h
  · obtain ⟨i, rfl⟩ := Nat.exists_eq_add_of_le (show 4 ≤ u by omega)
    simp only [Nat.add_sub_cancel_left] at h
    cases h
    exact .countLane writes i (by omega)
  split at h
  · obtain ⟨i, rfl⟩ := Nat.exists_eq_add_of_le (show 4 + s.params.wDp.cntLanes ≤ u by omega)
    simp only [Nat.add_sub_cancel_left] at h
    cases h
    exact .periodLane writes i (by omega)
  split at h
  · subst u
    have effect := MainEffect.enable (s := s) writes
    split at h <;> cases h <;> simpa [*] using effect
  split at h
  · cases h; exact .unmask brackets (by omega)
  split at h
  · cases h
    rw [respondBool, respond, ← answers]
    exact .answer (by omega)
  · cases h

/-- A micro-step of a command that answers a next state is one of the listed ones. -/
theorem MainEffect.of_microMain (h : microMain cmd u s = .next t) : MainEffect s cmd u t := by
  cases cmd with
  | critEnter =>
    simp only [microMain, microCritEnter] at h
    split at h <;> cases h
    · exact .critEnter
    · exact .answer rfl
  | critExit token =>
    simp only [microMain, microCritExit] at h
    split at h <;> cases h
    · exact .critExit token
    · exact .answer rfl
  | irqBind ch =>
    simp only [microMain, microIrqBind] at h
    split at h <;> cases h
    · cases ch with
      | tick => exact .bindTick
      | rx => exact .bindRx
    · exact .answer rfl
  | rbPop =>
    simp only [microMain, microRbPop] at h
    split at h
    case h_1 => cases h; exact .mask rfl
    case h_2 => cases h; exact .ringCount (.inl rfl)
    case h_3 =>
      split at h <;> cases h
      · exact .ringEmpty (.inl rfl) ‹_›
      · exact .ringOccupied (.inl rfl) ‹_›
    case h_4 => cases h; exact .ringTail (.inl rfl)
    case h_5 =>
      split at h <;> cases h
      obtain ⟨index, rfl⟩ := readBuf_ok_iff.mp ‹_›
      exact .ringRead (.inl rfl) index
    case h_6 => cases h; exact .popTail
    case h_7 => cases h; exact .popCount
    case h_8 => cases h; exact .unmask rfl rfl
    case h_9 =>
      have effect := MainEffect.answer (s := s) (cmd := .rbPop) (u := 9) rfl
      split at h <;> cases h <;> simpa [answerOf, *] using effect
    case h_10 => cases h
  | rbPeek =>
    simp only [microMain, microRbPeek] at h
    split at h
    case h_1 => cases h; exact .mask rfl
    case h_2 => cases h; exact .ringCount (.inr rfl)
    case h_3 =>
      split at h <;> cases h
      · exact .ringEmpty (.inr rfl) ‹_›
      · exact .ringOccupied (.inr rfl) ‹_›
    case h_4 => cases h; exact .ringTail (.inr rfl)
    case h_5 =>
      split at h <;> cases h
      obtain ⟨index, rfl⟩ := readBuf_ok_iff.mp ‹_›
      exact .ringRead (.inr rfl) index
    case h_6 => cases h; exact .unmask rfl rfl
    case h_7 =>
      have effect := MainEffect.answer (s := s) (cmd := .rbPeek) (u := 7) rfl
      split at h <;> cases h <;> simpa [answerOf, *] using effect
    case h_8 => cases h
  | rbIsEmpty | rbIsFull | rbAvail =>
    simp only [microMain, microPredicate] at h
    split at h <;> cases h
    · exact .predicate (by simp)
    · exact .answer rfl
  | clkInit =>
    simp only [microMain, microClkInit] at h
    split at h <;> cases h
    · exact .init
    · exact .answer rfl
  | clkSetPeriod p => exact .of_microSetPeriod rfl rfl rfl rfl h
  | clkStop => exact .of_microSetPeriod rfl rfl rfl rfl h
  | clkGetMs => exact .of_microSnapshot rfl rfl rfl rfl h
  | clkStatus =>
    simp only [microMain, microClkStatus] at h
    split at h <;> cases h
    · exact .mask rfl
    · exact .statusFault
    · exact .statusEnable
    · exact .unmask rfl rfl
    · exact .answer rfl
  | clkGetPeriod => exact .of_microSnapshot rfl rfl rfl rfl h
  | evTick | evRx | evEnv | isrTick | isrRx => cases h

/-! ## The handlers -/

/-- Every micro-step of the two handlers (R91, R112). -/
inductive IsrEffect (s : State) : Channel → Nat → State → Prop where
  | tickStart : IsrEffect s .tick 1
      { s with resp := none, micro.carry := false, micro.ctx := .isr .tick 2 }
  | tickLane (i : Nat) (isLane : i < s.params.wDp.lanes) : IsrEffect s .tick (2 + i)
      { s with
        acc := setLane32 s.params.wDp s.acc i (laneSum s i % 2 ^ s.params.wDp.bits)
        resp := none
        micro.carry := decide (laneSum s i / 2 ^ s.params.wDp.bits ≠ 0)
        micro.ctx := .isr .tick (2 + i + 1) }
  | tickClear : IsrEffect s .tick (2 + s.params.wDp.lanes)
      { s with tickPend := false, resp := none, micro.ctx := .isr .tick (2 + s.params.wDp.lanes + 1) }
  | rxCount : IsrEffect s .rx 1
      { s with resp := none, micro.isrC := s.count, micro.ctx := .isr .rx 2 }
  | rxFull (full : s.micro.isrC.toNat = s.params.n) : IsrEffect s .rx 2
      { s with resp := none, micro.ctx := .isr .rx 7 }
  | rxRoom (room : s.micro.isrC.toNat ≠ s.params.n) : IsrEffect s .rx 2
      { s with resp := none, micro.ctx := .isr .rx 3 }
  | rxHead : IsrEffect s .rx 3
      { s with resp := none, micro.isrH := s.head, micro.ctx := .isr .rx 4 }
  | rxStore (index : s.micro.isrH.toNat < s.params.n) : IsrEffect s .rx 4
      { s with
        buf := s.buf.write s.micro.isrH.toNat (fitElem s.params.wT s.rxData)
        resp := none
        micro.ctx := .isr .rx 5 }
  | rxAdvance : IsrEffect s .rx 5
      { s with head := nextIndex s.params.n s.micro.isrH, resp := none, micro.ctx := .isr .rx 6 }
  | rxGrow : IsrEffect s .rx 6
      { s with count := s.micro.isrC + 1#8, resp := none, micro.ctx := .isr .rx 7 }
  | rxClear : IsrEffect s .rx 7
      { s with rxPend := false, resp := none, micro.ctx := .isr .rx 8 }
  | leave {ch : Channel} {u : Nat} (isLast : u = lastIsrMicro s.params.wDp ch) : IsrEffect s ch u
      { s with resp := none, micro.ctx := .main }

theorem IsrEffect.of_microIsrTick (h : microIsrTick u s = .next t) : IsrEffect s .tick u t := by
  simp only [microIsrTick] at h
  split_ifs at h with _ first lanes clear done <;> cases h
  · exact first ▸ .tickStart
  · obtain ⟨i, rfl⟩ := Nat.exists_eq_add_of_le (show 2 ≤ u by omega)
    simp only [Nat.add_sub_cancel_left]
    exact .tickLane i (by omega)
  · exact clear ▸ .tickClear
  · exact .leave done

theorem IsrEffect.of_microIsrRx (h : microIsrRx u s = .next t) : IsrEffect s .rx u t := by
  unfold microIsrRx at h
  split at h
  case h_1 => cases h; exact .rxCount
  case h_2 =>
    split at h <;> cases h
    · exact .rxFull ‹_›
    · exact .rxRoom ‹_›
  case h_3 => cases h; exact .rxHead
  case h_4 =>
    split at h <;> cases h
    obtain ⟨index, rfl⟩ := writeBuf_ok_iff.mp ‹_›
    exact .rxStore index
  case h_5 => cases h; exact .rxAdvance
  case h_6 => cases h; exact .rxGrow
  case h_7 => cases h; exact .rxClear
  case h_8 => cases h; exact .leave rfl
  case h_9 => cases h

/-! ## One micro-step -/

/-- The micro-step of the context that holds the core (R37, R52). -/
theorem microStep_next (h : microStep s = .next t) :
    (∃ ch u, s.micro.ctx = .isr ch u ∧ IsrEffect s ch u t) ∨
      (s.micro.ctx = .main ∧ ∃ cmd u, s.micro.main = .busy cmd u ∧ MainEffect s cmd u t) := by
  unfold microStep at h
  split at h
  case h_1 u ctx => exact .inl ⟨.tick, u, ctx, .of_microIsrTick h⟩
  case h_2 u ctx => exact .inl ⟨.rx, u, ctx, .of_microIsrRx h⟩
  case h_3 ctx =>
    split at h
    · cases h
    · exact .inr ⟨ctx, _, _, ‹_›, .of_microMain h⟩

end Sys2Proof.Machine
end

section
/-! The interrupt gate (R48, R52, R53): where each micro-step leaves the sequence it belongs to and `IE`, what a handler
leaves alone of the main context, and where a handler can start. -/

namespace Sys2Proof.Machine

variable {s t : State} {u : Nat} {cmd : Instr} {ch : Channel} {l : Line} {i : Instr}

/-! ## The gate in two halves -/

/-- The main context's half of the gate: a bracket holds `IE = 0` (R48). -/
def MainGate (d : DataPath) (ie : Bool) : MainSeq → Prop
  | .idle => True
  | .busy cmd u => 1 ≤ u ∧ u ≤ lastMicro d cmd ∧ (inBracket d cmd u = true → ie = false)

/-- The handlers' half: one runs only with `IE = 1` (R53). -/
def IsrGate (d : DataPath) (ie : Bool) : Ctx → Prop
  | .main => True
  | .isr ch u => 1 ≤ u ∧ u ≤ lastIsrMicro d ch ∧ ie = true

theorem gateInv_iff : s.gateInv ↔
    MainGate s.params.wDp s.ie s.micro.main ∧ IsrGate s.params.wDp s.ie s.micro.ctx := by
  unfold State.gateInv MainGate IsrGate
  cases s.micro.main <;> cases s.micro.ctx <;> rfl

/-- With neither a command nor a handler in progress the gate is free. -/
theorem gateInv_of_ready (ready : hostReady s = true) : s.gateInv := by
  obtain ⟨ctx, main⟩ := hostReady_iff.mp ready
  simp [gateInv_iff, ctx, main, MainGate, IsrGate]

/-! ## Layer A -/

theorem Effect.keeps_micro (h : Effect s i t) : t.micro = s.micro := by
  cases h <;> rfl

theorem Effect.keeps_ie (h : Effect s i t) (notHost : i.cls ≠ .hostCommand) : t.ie = s.ie := by
  cases h with
  | critEnter | critExit => exact absurd rfl notHost
  | _ => rfl

theorem Effect.keeps_params (h : Effect s i t) : t.params = s.params :=
  (setting_eq_iff.mp h.keeps_setting).1

theorem Effect.keeps_ready (h : Effect s i t) (ready : hostReady s = true) : hostReady t = true := by
  rw [hostReady, h.keeps_micro]; exact ready

/-! ## Layer B -/

theorem one_lt_lastMicro (d : DataPath) (host : cmd.cls = .hostCommand) : 1 < lastMicro d cmd := by
  cases cmd <;> simp [lastMicro, Instr.cls] at host ⊢ <;> omega

theorem two_lt_lastMicro (d : DataPath) (brackets : bracketed cmd = true) : 2 < lastMicro d cmd := by
  cases cmd <;> simp [lastMicro, bracketed] at brackets ⊢ <;> cases d <;> simp

/-- Inside a bracket the next micro-step is still masked. -/
theorem MainGate.goes_on {d : DataPath} {ie : Bool} {v : Nat} (gate : MainGate d ie (.busy cmd u))
    (brackets : bracketed cmd = true) (inside : 2 ≤ u) (forward : u < v) (upTo : v ≤ lastMicro d cmd) :
    MainGate d ie (.busy cmd v) := by
  obtain ⟨-, -, masked⟩ := gate
  exact ⟨by omega, upTo, fun _ => masked (by simp [inBracket, brackets, inside]; omega)⟩

theorem lastMicro_of_programs {p : Half} (d : DataPath) (writes : programs cmd = some p) :
    bracketed cmd = true ∧ lastMicro d cmd = 6 + d.cntLanes + d.lanes := by
  cases cmd with
  | clkSetPeriod | clkStop => exact ⟨rfl, rfl⟩
  | _ => cases writes

theorem lastMicro_of_snapshots {reg : Word} (d : DataPath) (reads : snapshots s cmd = some reg) :
    bracketed cmd = true ∧ lastMicro d cmd = 3 + d.lanes := by
  cases cmd with
  | clkGetMs | clkGetPeriod => exact ⟨rfl, rfl⟩
  | _ => cases reads

/-- A micro-step moves a command on inside its sequence; only the first and the last but one write `IE` (R48). -/
theorem MainEffect.keeps_gate (h : MainEffect s cmd u t) (gate : MainGate s.params.wDp s.ie (.busy cmd u)) :
    MainGate s.params.wDp t.ie t.micro.main := by
  cases h with
  | critEnter | critExit | bindTick | bindRx | init => simp [MainGate, lastMicro, inBracket, bracketed]
  | predicate reads => obtain rfl | rfl | rfl := reads <;> simp [MainGate, lastMicro, inBracket, bracketed]
  | mask brackets => exact ⟨by omega, (two_lt_lastMicro _ brackets).le, fun _ => rfl⟩
  | ringCount ring | ringEmpty ring | ringOccupied ring | ringTail ring | ringRead ring =>
    obtain rfl | rfl := ring <;> exact gate.goes_on rfl (by omega) (by simp [lastMicro]) (by simp [lastMicro])
  | popTail | popCount | statusFault | statusEnable => exact gate.goes_on rfl (by omega) (by omega) (by simp [lastMicro])
  | readLane reads =>
    obtain ⟨brackets, last⟩ := lastMicro_of_snapshots s.params.wDp reads
    exact gate.goes_on brackets (by omega) (by omega) (by omega)
  | disable writes | sample writes | countLane writes | periodLane writes | enable writes =>
    obtain ⟨brackets, last⟩ := lastMicro_of_programs s.params.wDp writes
    exact gate.goes_on brackets (by omega) (by omega) (by omega)
  | unmask _ beforeLast => exact ⟨by omega, by omega, by simp [inBracket, beforeLast]⟩
  | answer => exact trivial

theorem MainEffect.keeps_ctx (h : MainEffect s cmd u t) : t.micro.ctx = s.micro.ctx := by
  cases h <;> rfl

/-- A micro-step moves a handler on inside its sequence, or leaves it (R91, R112). -/
theorem IsrEffect.keeps_gate (h : IsrEffect s ch u t) (enabled : s.ie = true) :
    IsrGate s.params.wDp t.ie t.micro.ctx := by
  cases h with
  | leave => exact trivial
  | tickStart | tickLane | tickClear =>
    exact ⟨by omega, by simp only [lastIsrMicro]; omega, enabled⟩
  | _ => exact ⟨by omega, by simp [lastIsrMicro], enabled⟩

/-- What belongs to the main context (R52): the command in progress and the registers that only commands write. -/
def State.mainSide (s : State) : MainSeq × Byte × Bool × Word × Half × Bool × Bool × Bool × Bool :=
  (s.micro.main, s.tail, s.ie, s.tickPeriodMs, s.srcCnt, s.srcEn, s.fault, s.boundTick, s.boundRx)

theorem mainSide_eq_iff : t.mainSide = s.mainSide ↔
    t.micro.main = s.micro.main ∧ t.tail = s.tail ∧ t.ie = s.ie ∧ t.tickPeriodMs = s.tickPeriodMs ∧
      t.srcCnt = s.srcCnt ∧ t.srcEn = s.srcEn ∧ t.fault = s.fault ∧ t.boundTick = s.boundTick ∧
      t.boundRx = s.boundRx := by
  simp [State.mainSide]

/-- A handler's micro-step is silent and leaves the main context alone (R52). -/
theorem IsrEffect.keeps_mainSide (h : IsrEffect s ch u t) : t.mainSide = s.mainSide ∧ t.resp = none := by
  cases h <;> exact ⟨rfl, rfl⟩

theorem Effect.keeps_mainSide (h : Effect s i t) (notHost : i.cls ≠ .hostCommand) :
    t.mainSide = s.mainSide ∧ t.resp = none := by
  cases h with
  | tickEvent | rxEvent | rxOverrun | envEvent | tick | rxDrop | rxPush => exact ⟨rfl, rfl⟩
  | _ => exact absurd rfl notHost

theorem microStep_keeps_gate (gate : s.gateInv) (h : microStep s = .next t) : t.gateInv := by
  obtain ⟨params, -, -⟩ := setting_eq_iff.mp (microStep_keeps_setting h)
  obtain ⟨mainGate, isrGate⟩ := gateInv_iff.mp gate
  rw [gateInv_iff, params]
  obtain ⟨ch, u, ctx, effect⟩ | ⟨ctx, cmd, u, main, effect⟩ := microStep_next h
  · rw [ctx] at isrGate
    obtain ⟨-, -, enabled⟩ := isrGate
    obtain ⟨main, -, ie, -⟩ := mainSide_eq_iff.mp effect.keeps_mainSide.1
    exact ⟨main ▸ ie ▸ mainGate, effect.keeps_gate enabled⟩
  · rw [main] at mainGate
    exact ⟨effect.keeps_gate mainGate, by rw [effect.keeps_ctx, ctx]; exact trivial⟩

/-! ## A line, a step -/

theorem LineEffect.keeps_gate (h : LineEffect s l t) (gate : s.gateInv) : t.gateInv := by
  cases h with
  | command ready _ _ effect => exact gateInv_of_ready (effect.keeps_ready ready)
  | port ready _ _ effect => exact gateInv_of_ready (effect.keeps_ready ready)
  | event _ notHost effect =>
    rwa [gateInv_iff, effect.keeps_micro, effect.keeps_ie notHost, effect.keeps_params, ← gateInv_iff]
  | illegal | portIllegal | startIllegal => exact gate
  | reset => exact gateInv_of_ready rfl
  | start ready _ host =>
    obtain ⟨ctx, -⟩ := hostReady_iff.mp ready
    exact gateInv_iff.mpr ⟨⟨le_rfl, (one_lt_lastMicro _ host).le, by simp [inBracket]⟩, by simp [ctx, IsrGate]⟩
  | @enter ch enabled =>
    obtain ⟨mainGate, -⟩ := gateInv_iff.mp gate
    obtain ⟨ie, -⟩ := dispatchable_iff.mp enabled
    exact gateInv_iff.mpr ⟨mainGate, le_rfl, by cases ch <;> simp only [lastIsrMicro] <;> omega, ie⟩
  | micro next => exact microStep_keeps_gate gate next

/-- Settles O49: the line performed keeps the gate, and the pointer is no part of it. -/
theorem stepKeepsGate : Obligations.StepKeepsGate := by
  intro s t gate h
  obtain ⟨l, v, -, performed, rfl⟩ := step_next_iff.mp h
  exact (LineEffect.of_perform performed).keeps_gate gate

/-! ## While a handler holds the core -/

/-- Settles O55: of the lines that need no ready host, an event and the handler's micro-step are left (R52). -/
theorem mainContextWaitsForHandler : Obligations.MainContextWaitsForHandler := by
  intro s t l ch u ctx notReset h
  have notReady : hostReady s = true → False := fun ready => by simp [hostReady, ctx] at ready
  have notEnabled : ∀ c, dispatchable c s = true → False := fun c enabled => by simp [dispatchable, ctx] at enabled
  suffices (l = .micro ∨ ∃ w i, l = .word w ∧ decode s.params.wT w = .ok i ∧ i.cls = .sourceEvent) ∧
      t.mainSide = s.mainSide ∧ t.resp = none by
    simpa only [mainSide_eq_iff, and_assoc] using this
  cases LineEffect.of_perform h with
  | command ready | illegal ready | port ready | portIllegal ready | start ready | startIllegal ready =>
    exact (notReady ready).elim
  | reset => exact absurd rfl notReset
  | enter enabled => exact (notEnabled _ enabled).elim
  | @event w i _ decodes notHost effect =>
    refine ⟨.inr ⟨w, i, rfl, decodes, ?_⟩, effect.keeps_mainSide notHost⟩
    cases effect with
    | tickEvent | rxEvent | rxOverrun | envEvent => rfl
    | tick enabled | rxDrop enabled | rxPush enabled => exact (notEnabled _ enabled).elim
    | _ => exact absurd rfl notHost
  | micro next =>
    obtain ⟨c, v, -, effect⟩ | ⟨main, -⟩ := microStep_next next
    · exact ⟨.inl rfl, effect.keeps_mainSide⟩
    · cases ctx.symm.trans main

/-! ## Where a handler can start -/

/-- A whole dispatch found its channel enabled (R134). -/
theorem dispatchable_of_dispatchWord (h : performLine (.word (dispatchWord ch)) s = .next t) :
    dispatchable ch s = true := by
  cases ch with
  | tick => exact (execIsrTick_next_iff.mp h).1
  | rx => exact (execIsrRx_next_iff.mp h).1

theorem enter_next_iff : performLine (.enter ch) s = .next t ↔ dispatchable ch s = true ∧ t = enterHandler ch (silent s) := by
  simp only [performLine, startHandler]
  split <;> simp [*, eq_comm]

/-- Settles O57: both ways in ask for the same condition of R134. -/
theorem handlerStartsExactlyWithIe : Obligations.HandlerStartsExactlyWithIe := by
  intro s ch
  simp only [enter_next_iff, exists_and_left, exists_eq, and_true, dispatchable_iff, true_and]
  exact fun t h => dispatchable_iff.mp (dispatchable_of_dispatchWord h)

end Sys2Proof.Machine
end

section
/-! The seven reading commands repeated (R57), and the accesses to `BUF` at an index that is none. -/

namespace Sys2Proof.Machine

variable {s t : State}

/-- Settles O45: a reading command changes nothing but the response, and its answer does not depend on the response. -/
theorem readsAreIdempotent : Obligations.ReadsAreIdempotent := by
  intro i s t reads h
  cases Effect.of_exec h with
  | peekEmpty empty => exact Effect.exec_eq (.peekEmpty empty)
  | peek occupied index => exact Effect.exec_eq (.peek occupied index)
  | isEmpty | isFull | avail | getMs | status | getPeriod => rfl
  | _ => simp at reads

/-- A push at a `HEAD` that is no index stops (R57). -/
theorem rxHandler_of_head_ge (outside : s.params.n ≤ s.head.toNat) (room : s.count.toNat ≠ s.params.n) :
    rxHandler s = .error (.noSuchElement s.head.toNat) := by
  simp [rxHandler, tryPush, writeBuf, room, Nat.not_lt.mpr outside]

/-- Settles O19: the index is compared with `N` before the access, and none of the three guards it otherwise. -/
theorem outOfRangeIndexStops : Obligations.OutOfRangeIndexStops := by
  refine fun s => ⟨fun outside occupied => ?_, fun outside room enabled => ?_⟩
  · have noIndex := Nat.not_lt.mpr outside
    exact ⟨by simp [exec, execRbPop_eq, occupied, noIndex], by simp [exec, execRbPeek_eq, occupied, noIndex]⟩
  · have stops := rxHandler_of_head_ge (s := enterHandler .rx (silent s)) outside room
    simp only [exec, execIsrRx, dispatch, enabled, if_true, stops]
    rfl

end Sys2Proof.Machine
end

section
/-! Runs of lines put together (R72), and the books of a refinement (R49): `Refines ls ks a b a' L L'` says that the Layer A
lines `ks` take `a` to `a'` and stand for the lines `ls` from `b`, with what Layer A owes to Layer B before and after. -/

namespace Sys2Proof.Machine

variable {s t u a a' b b' : State} {l k : Line} {ls ks ks' : List Line}

/-! ## Runs one after the other -/

theorem runLines_cons (h : performLine l s = .next t) : runLines (l :: ls) s = runLines ls t := by
  simp [runLines, h]

theorem runLines_cons_next_iff : runLines (l :: ls) s = .next u ↔
    ∃ t, performLine l s = .next t ∧ runLines ls t = .next u := by
  simp only [runLines]
  cases performLine l s <;> simp

theorem responses_cons (h : performLine l s = .next t) : responses (l :: ls) s = t.resp.toList ++ responses ls t := by
  simp [responses, h]

theorem receiveQuiet_cons_iff (h : performLine l s = .next t) :
    receiveQuiet (l :: ls) s = true ↔ receiveQuiet [l] s = true ∧ receiveQuiet ls t = true := by
  simp only [receiveQuiet, h, Bool.and_true, Bool.and_eq_true]

theorem runLines_append (h : runLines ks s = .next t) : runLines (ks ++ ks') s = runLines ks' t := by
  induction ks generalizing s with
  | nil => cases h; rfl
  | cons k ks ih =>
    obtain ⟨v, step, rest⟩ := runLines_cons_next_iff.mp h
    rw [List.cons_append, runLines_cons step, ih rest]

theorem responses_append (h : runLines ks s = .next t) :
    responses (ks ++ ks') s = responses ks s ++ responses ks' t := by
  induction ks generalizing s with
  | nil => cases h; rfl
  | cons k ks ih =>
    obtain ⟨v, step, rest⟩ := runLines_cons_next_iff.mp h
    rw [List.cons_append, responses_cons step, responses_cons step, ih rest, List.append_assoc]

theorem AdmittedRun.append {rs rs' : List Response} (first : AdmittedRun ks s rs t) (second : AdmittedRun ks' t rs' u) :
    AdmittedRun (ks ++ ks') s (rs ++ rs') u := by
  induction first with
  | nil => exact second
  | cons step _ ih => exact List.append_assoc .. ▸ .cons step (ih second)

theorem AdmittedRun.single (h : Admits s l t) : AdmittedRun [l] s t.resp.toList t :=
  List.append_nil t.resp.toList ▸ .cons h (.nil t)

/-! ## What a list of lines drives -/

theorem hostWords_append (ks ks' : List Line) : hostWords (ks ++ ks') = hostWords ks ++ hostWords ks' := by
  induction ks with
  | nil => rfl
  | cons k ks ih => cases k <;> simp [hostWords, ih]

theorem traceWords_append (ks ks' : List Line) : traceWords (ks ++ ks') = traceWords ks ++ traceWords ks' := by
  induction ks with
  | nil => rfl
  | cons k ks ih => cases k <;> simp [traceWords, ih]

theorem eventWords_append (ks ks' : List Line) : eventWords (ks ++ ks') = eventWords ks ++ eventWords ks' := by
  simp [eventWords, traceWords_append]

theorem dispatches_append (ch : Channel) (ks ks' : List Line) :
    dispatches ch (ks ++ ks') = dispatches ch ks + dispatches ch ks' := by
  simp [dispatches]

/-! ## The books -/

/-- What Layer A still owes to Layer B inside operations: the command it has not run yet, the response it has driven too
early, the dispatch it has not made yet. -/
structure Ledger where
  /-- Words Layer B has presented and Layer A has not. -/
  words : List Word
  /-- Responses Layer A has driven and Layer B has not. -/
  answers : List Response
  /-- Handlers Layer B has entered and Layer A has not dispatched. -/
  handlers : List Channel

/-- Nothing owed. -/
def Ledger.settled : Ledger := ⟨[], [], []⟩

/-- A step that Layer A makes in these statements: a word on the command port, or an event or dispatch of the trace. -/
def Line.whole (k : Line) : Prop := (∃ w, k = .port w) ∨ ∃ w, k = .word w ∧ isTraceWord w = true

/-- The Layer A lines `ks` from `a` to `a'` stand for the lines `ls` from `b` (R49): the same words, events and responses in
their orders and as many dispatches, up to what is owed before (`L`) and after (`L'`). -/
structure Refines (ls ks : List Line) (a b a' : State) (L L' : Ledger) : Prop where
  lines : ∀ k ∈ ks, k.whole
  words : hostWords ks ++ L'.words = L.words ++ hostWords ls
  events : eventWords ks = eventWords ls
  handlers : ∀ ch, dispatches ch ks + L'.handlers.count ch = L.handlers.count ch + dispatches ch ls
  trace : L.handlers = [] → (∀ l ∈ ls, ∀ ch, l ≠ .enter ch) → traceWords ks = traceWords ls ∧ L'.handlers = []
  run : ∃ rs, L.answers ++ rs = responses ls b ++ L'.answers ∧ AdmittedRun ks a rs a' ∧
    (receiveQuiet ls b = true → runLines ks a = .next a' ∧ responses ks a = rs)

theorem Refines.nil (a b : State) (L : Ledger) : Refines [] [] a b a L L where
  lines := fun _ mem => (List.not_mem_nil mem).elim
  words := (List.append_nil L.words).symm
  events := rfl
  handlers := fun _ => Nat.add_comm _ _
  trace := fun none_ _ => ⟨rfl, none_⟩
  run := ⟨[], List.append_nil _, .nil a, fun _ => ⟨rfl, rfl⟩⟩

/-- A line and the lines after it. -/
theorem Refines.cons {a'' : State} {L L' L'' : Ledger} (performs : performLine l b = .next b')
    (first : Refines [l] ks a b a' L L') (rest : Refines ls ks' a' b' a'' L' L'') :
    Refines (l :: ls) (ks ++ ks') a b a'' L L'' where
  lines k mem := (List.mem_append.mp mem).elim (first.lines k) (rest.lines k)
  words := by
    rw [hostWords_append, List.append_assoc, rest.words, ← List.append_assoc, first.words, List.append_assoc,
      ← hostWords_append, List.singleton_append]
  events := by rw [eventWords_append, first.events, rest.events, ← eventWords_append, List.singleton_append]
  handlers ch := by
    have one := first.handlers ch
    have more := rest.handlers ch
    rw [← List.singleton_append, dispatches_append, dispatches_append]
    omega
  trace none_ noEnter := by
    obtain ⟨one, none_⟩ := first.trace none_ fun l' mem => noEnter l' (List.mem_singleton.mp mem ▸ List.mem_cons_self)
    obtain ⟨more, none_⟩ := rest.trace none_ fun l' mem => noEnter l' (List.mem_cons_of_mem _ mem)
    exact ⟨by rw [traceWords_append, one, more, ← traceWords_append, List.singleton_append], none_⟩
  run := by
    obtain ⟨rs, one, admitted, machine⟩ := first.run
    obtain ⟨rs', more, admitted', machine'⟩ := rest.run
    refine ⟨rs ++ rs', ?_, admitted.append admitted', fun quiet => ?_⟩
    · rw [← List.append_assoc, one, List.append_assoc, more, responses_cons performs, responses_cons performs]
      simp [responses]
    · obtain ⟨quiet, quiet'⟩ := (receiveQuiet_cons_iff performs).mp quiet
      obtain ⟨ran, answered⟩ := machine quiet
      obtain ⟨ran', answered'⟩ := machine' quiet'
      exact ⟨by rw [runLines_append ran, ran'], by rw [responses_append ran, answered, answered']⟩

theorem responses_single (performs : performLine l b = .next b') : responses [l] b = b'.resp.toList := by
  rw [responses_cons performs]; exact List.append_nil _

variable {L L' : Ledger}

/-- A line for which Layer A does nothing. -/
theorem Refines.stay (performs : performLine l b = .next b') (answers : L.answers = b'.resp.toList ++ L'.answers)
    (words : L'.words = L.words ++ hostWords [l]) (noTrace : traceWords [l] = [])
    (handlers : ∀ ch, L'.handlers.count ch = L.handlers.count ch + dispatches ch [l])
    (trace : L.handlers = [] → (∀ ch, l ≠ .enter ch) → L'.handlers = []) : Refines [l] [] a b a L L' where
  lines := fun _ mem => (List.not_mem_nil mem).elim
  words := words
  events := by simp [eventWords, noTrace, traceWords]
  handlers ch := by rw [handlers]; exact Nat.zero_add _
  trace none_ noEnter := ⟨noTrace.symm, trace none_ (noEnter l (List.mem_singleton_self l))⟩
  run := ⟨[], by rw [List.append_nil, responses_single performs, answers], .nil a, fun _ => ⟨rfl, rfl⟩⟩

/-- A line for which Layer A does one. -/
theorem Refines.move (performs : performLine l b = .next b') (whole : k.whole) (admits : Admits a k a')
    (machine : receiveQuiet [l] b = true → performLine k a = .next a')
    (answers : L.answers ++ a'.resp.toList = b'.resp.toList ++ L'.answers)
    (words : hostWords [k] ++ L'.words = L.words ++ hostWords [l]) (events : eventWords [k] = eventWords [l])
    (handlers : ∀ ch, dispatches ch [k] + L'.handlers.count ch = L.handlers.count ch + dispatches ch [l])
    (trace : L.handlers = [] → traceWords [k] = traceWords [l] ∧ L'.handlers = []) : Refines [l] [k] a b a' L L' where
  lines := fun _ mem => List.mem_singleton.mp mem ▸ whole
  words := words
  events := events
  handlers := handlers
  trace none_ _ := trace none_
  run := by
    refine ⟨a'.resp.toList, by rw [responses_single performs, answers], .single admits, fun quiet => ?_⟩
    have ran := machine quiet
    exact ⟨by rw [runLines_cons ran]; rfl, responses_single ran⟩

end Sys2Proof.Machine
end

section
/-! The relation between a Layer A state and the Layer B state it stands for (R49). Each command is done at Layer A at one
of its micro-steps: an unbracketed one at its access, a bracketed one where `IE` is restored, `CLK.SETPERIOD` where it
samples `env.src_ok`; each handler where it clears its flag. Before that Layer A is where the operation began, afterwards
where it ends. -/

namespace Sys2Proof.Machine

variable {a b s t : State} {u : Nat} {cmd : Instr} {ws : List Word} {rs : List Response} {hs : List Channel}

/-! ## The main context where Layer A and Layer B agree -/

/-- Layer B at rest, before its first access, or after the access at which Layer A has run the command. -/
inductive Level (s : State) : List Word → List Response → Prop where
  | idle (main : s.micro.main = .idle) : Level s [] []
  | called {w : Word} {cmd : Instr} (main : s.micro.main = .busy cmd 1)
      (word : decodeHost s.params.wT w = some cmd) : Level s [w] []
  | answered {cmd : Instr} (main : s.micro.main = .busy cmd (lastMicro s.params.wDp cmd)) : Level s [] [answerOf s cmd]

/-- The part of the Layer B state that handlers do not touch (R37, R52). -/
def Micro.mainPart (m : Micro) : Micro := { m with ctx := .main, carry := false, isrC := 0#8, isrH := 0#8 }

/-- What a response is made of beside the command: what the main context has read, and `FAULT`. -/
def State.answerPart (s : State) : Params × Bool × Micro := (s.params, s.fault, s.micro.mainPart)

theorem answerPart_eq (same : t.answerPart = s.answerPart) :
    t.params = s.params ∧ t.micro.main = s.micro.main ∧ answerOf t = answerOf s := by
  simp only [State.answerPart, Micro.mainPart, Prod.mk.injEq, Micro.mk.injEq, true_and] at same
  obtain ⟨params, fault, main, tmp, saved, c, t, v, q, b0, b1, -⟩ := same
  refine ⟨params, main, funext fun cmd => ?_⟩
  cases cmd <;> simp only [answerOf, *]

theorem Level.congr (level : Level s ws rs) (same : t.answerPart = s.answerPart) : Level t ws rs := by
  obtain ⟨params, main, answer⟩ := answerPart_eq same
  cases level with
  | idle idle => exact .idle (main.trans idle)
  | called called word => exact .called (main.trans called) (params ▸ word)
  | @answered cmd last => rw [← answer]; exact .answered (by rw [main, last, params])

/-! ## Inside a bracket -/

/-- What `RB.POP` and `RB.PEEK` have read, and what `RB.POP` has written, before micro-step `u` (R91). -/
structure RingProgress (a b : State) (cmd : Instr) (u : Nat) : Prop where
  enable : b.srcEn = a.srcEn
  counted : 3 ≤ u → b.micro.c = a.count
  occupied : 4 ≤ u → u + 1 < lastMicro b.params.wDp cmd → a.count ≠ 0#8
  indexed : 5 ≤ u → a.count ≠ 0#8 → b.micro.t = a.tail
  read : 6 ≤ u → a.count ≠ 0#8 → a.tail.toNat < a.params.n ∧ b.micro.v = elemAt a a.tail.toNat
  tail : b.tail = if 7 ≤ u ∧ a.count ≠ 0#8 then nextIndex a.params.n a.tail else a.tail
  count : b.count = if 8 ≤ u ∧ a.count ≠ 0#8 then a.count - 1#8 else a.count

/-- The registers of the main context that a bracket writes, none of them written. -/
def Unwritten (a b : State) : Prop := b.tail = a.tail ∧ b.count = a.count ∧ b.srcEn = a.srcEn

/-- What a bracketed command has read and written before micro-step `u`, as long as Layer A has not run it. -/
def Progress (a b : State) : Instr → Nat → Prop
  | .rbPop, u => RingProgress a b .rbPop u
  | .rbPeek, u => RingProgress a b .rbPeek u
  | .clkStatus, u => Unwritten a b ∧ (3 ≤ u → b.micro.b0 = b.fault) ∧ (4 ≤ u → b.micro.b1 = b.srcEn)
  | .clkGetMs, u => Unwritten a b ∧ ∀ i < b.params.wDp.lanes, 2 + i < u →
      lane b.params.wDp b.micro.tmp.toNat i = lane b.params.wDp b.acc.toNat i
  | .clkGetPeriod, u => Unwritten a b ∧ ∀ i < b.params.wDp.lanes, 2 + i < u →
      lane b.params.wDp b.micro.tmp.toNat i = lane b.params.wDp b.tickPeriodMs.toNat i
  | .clkSetPeriod _, u => u ≤ 3 ∧ b.tail = a.tail ∧ b.count = a.count ∧ (b.srcEn = true → a.srcEn = true) ∧
      (u = 3 → b.srcEn = false)
  | .clkStop, u => u ≤ 3 ∧ b.tail = a.tail ∧ b.count = a.count ∧ (b.srcEn = true → a.srcEn = true) ∧
      (u = 3 → b.srcEn = false)
  | _, _ => False

/-- Layer B with the bracket undone: `IE` as it was saved, and what the bracket writes as Layer A has it. -/
def unbracket (a b : State) : State :=
  { b with ie := b.micro.saved, tail := a.tail, count := a.count, srcEn := a.srcEn }

/-- Layer B with the programming of `CLK.SETPERIOD` done and the bracket left (R103, R112). -/
def programmed (p : Half) (b : State) : State :=
  { b with
    ie := b.micro.saved
    srcEn := decide (b.micro.q ≠ 0#16)
    srcCnt := b.micro.q
    tickPeriodMs := newPeriod b.params.fTick p b.micro.q }

/-- What `CLK.SETPERIOD p` has written before micro-step `u`, past its sample of `env.src_ok`, on the data path `d` (R112). -/
structure PeriodProgress (d : DataPath) (b : State) (p : Half) (u : Nat) : Prop where
  sampled : 4 ≤ u
  off : u ≤ 4 + d.cntLanes + d.lanes → b.srcEn = false
  on : 4 + d.cntLanes + d.lanes < u → b.srcEn = decide (b.micro.q ≠ 0#16)
  counts : ∀ i < d.cntLanes, 4 + i < u → lane d b.srcCnt.toNat i = lane d b.micro.q.toNat i
  periods : ∀ i < d.lanes, 4 + d.cntLanes + i < u →
    lane d b.tickPeriodMs.toNat i = lane d (newPeriod b.params.fTick p b.micro.q).toNat i

/-! ## Inside a handler -/

/-- The carry out of the low `k` lanes of an addition (R112). -/
def carryAfter (d : DataPath) (x y : Word) (k : Nat) : Nat :=
  (x.toNat % 2 ^ (k * d.bits) + y.toNat % 2 ^ (k * d.bits)) / 2 ^ (k * d.bits)

/-- A register to whose low `k` lanes those of another have been added (R112). -/
def sumAfter (d : DataPath) (x y : Word) (k : Nat) : Word :=
  BitVec.ofNat 32 ((x.toNat % 2 ^ (k * d.bits) + y.toNat % 2 ^ (k * d.bits)) % 2 ^ (k * d.bits) +
    x.toNat / 2 ^ (k * d.bits) * 2 ^ (k * d.bits))

/-- What `ISR.TICK` has added before micro-step `u`, on the data path `d` (R112). -/
structure TickProgress (d : DataPath) (a b : State) (u : Nat) : Prop where
  started : 1 ≤ u
  upTo : u ≤ 2 + d.lanes
  sum : b.acc = sumAfter d a.acc b.tickPeriodMs (u - 2)
  carry : 2 ≤ u → bitNat b.micro.carry = carryAfter d a.acc b.tickPeriodMs (u - 2)

/-- What `ISR.RX` has read and written before micro-step `u` (R91). -/
structure RxProgress (a b : State) (u : Nat) : Prop where
  upTo : u ≤ 7
  counted : 2 ≤ u → b.micro.isrC = a.count
  room : 3 ≤ u → u ≤ 6 → a.count.toNat ≠ a.params.n
  headed : 4 ≤ u → a.count.toNat ≠ a.params.n → b.micro.isrH = a.head
  index : 5 ≤ u → a.count.toNat ≠ a.params.n → a.head.toNat < a.params.n
  stored : b.buf = if 5 ≤ u ∧ a.count.toNat ≠ a.params.n then a.buf.write a.head.toNat (fitElem a.params.wT a.rxData)
    else a.buf
  head : b.head = if 6 ≤ u ∧ a.count.toNat ≠ a.params.n then nextIndex a.params.n a.head else a.head
  count : b.count = if 7 ≤ u ∧ a.count.toNat ≠ a.params.n then a.count + 1#8 else a.count

/-! ## The relation -/

/-- Layer A in state `a` stands for Layer B in state `b`, owing the words, responses and dispatches given. -/
inductive Sim (a b : State) : List Word → List Response → List Channel → Prop where
  | level {ws : List Word} {rs : List Response}
      (ctx : ∀ ch u, b.micro.ctx = .isr ch u → u = lastIsrMicro b.params.wDp ch)
      (same : a.layerA = b.layerA) (level : Level b ws rs) : Sim a b ws rs []
  | bracket {w : Word} {cmd : Instr} {u : Nat} (ctx : b.micro.ctx = .main) (main : b.micro.main = .busy cmd u)
      (word : decodeHost b.params.wT w = some cmd) (inside : 2 ≤ u) (upTo : u < lastMicro b.params.wDp cmd)
      (masked : b.ie = false) (same : a.layerA = (unbracket a b).layerA) (progress : Progress a b cmd u) :
      Sim a b [w] [] []
  | programmed {cmd : Instr} {p : Half} {u : Nat} (ctx : b.micro.ctx = .main) (main : b.micro.main = .busy cmd u)
      (writes : programs cmd = some p) (upTo : u < lastMicro b.params.wDp cmd) (masked : b.ie = false)
      (same : a.layerA = (programmed p b).layerA) (progress : PeriodProgress b.params.wDp b p u) : Sim a b [] [answerOf b cmd] []
  | tick {ws : List Word} {rs : List Response} {u : Nat} (ctx : b.micro.ctx = .isr .tick u) (enabled : b.ie = true)
      (bound : b.boundTick = true) (pending : b.tickPend = true) (same : a.layerA = { b with acc := a.acc }.layerA)
      (level : Level b ws rs) (progress : TickProgress b.params.wDp a b u) : Sim a b ws rs [.tick]
  | rx {ws : List Word} {rs : List Response} {u : Nat} (ctx : b.micro.ctx = .isr .rx u) (enabled : b.ie = true)
      (bound : b.boundRx = true) (pending : b.rxPend = true)
      (same : a.layerA = { b with buf := a.buf, head := a.head, count := a.count }.layerA) (level : Level b ws rs)
      (progress : RxProgress a b u) : Sim a b ws rs [.rx]

/-! ## Source events -/

/-- A state with the registers of the sources taken from another (R31 to R33, R35, R36). -/
def State.withSources (s k : State) : State :=
  { s with
    tickPend := k.tickPend
    rxPend := k.rxPend
    rxData := k.rxData
    envTimeInvalid := k.envTimeInvalid
    envSrcOk := k.envSrcOk
    draws := k.draws
    resp := none }

theorem layerA_withSources (k : State) (same : a.layerA = s.layerA) :
    (a.withSources k).layerA = (s.withSources k).layerA :=
  congrArg (·.withSources k) same

/-- A source event writes the registers of the sources, raises flags, and keeps a datum the handler has stored (R132,
R133, R149; log entry 23). -/
theorem Effect.of_event {i : Instr} (h : Effect b i t) (event : i.cls = .sourceEvent) :
    t = b.withSources t ∧ (b.tickPend = true → t.tickPend = true) ∧ (b.rxPend = true → t.rxPend = true) ∧
      (rxStored b = true → b.rxPend = true → t.rxData = b.rxData) := by
  cases h with
  | tickEvent => exact ⟨rfl, fun _ => rfl, id, fun _ _ => rfl⟩
  | rxEvent d free => exact ⟨rfl, id, fun _ => rfl, fun _ waiting => by simp [free] at waiting⟩
  | rxOverrun => exact ⟨rfl, id, fun _ => rfl, fun stored _ => by simp [stored]⟩
  | envEvent => exact ⟨rfl, id, id, fun _ _ => rfl⟩
  | _ => cases event

theorem Progress.withSources (k : State) (progress : Progress a b cmd u) :
    Progress (a.withSources k) (b.withSources k) cmd u := by
  cases cmd with
  | rbPop | rbPeek => exact ⟨progress.enable, progress.counted, progress.occupied, progress.indexed, progress.read,
      progress.tail, progress.count⟩
  | _ => exact progress

theorem rxStored_of_progress (ctx : b.micro.ctx = .isr .rx u) (params : a.params = b.params)
    (progress : RxProgress a b u) : rxStored b = true ↔ 5 ≤ u ∧ a.count.toNat ≠ a.params.n := by
  have upTo := progress.upTo
  simp only [rxStored, ctx, ← params, Bool.and_eq_true, decide_eq_true_eq]
  constructor
  · rintro ⟨⟨low, -⟩, room⟩
    exact ⟨low, progress.counted (by omega) ▸ room⟩
  · rintro ⟨low, room⟩
    exact ⟨⟨low, upTo⟩, (progress.counted (by omega)).symm ▸ room⟩

/-- The registers a source event reads, and the parameters. -/
def State.sources (s : State) : Params × Bool × Bool × Elem × Bool × Bool × Nat :=
  (s.params, s.tickPend, s.rxPend, s.rxData, s.envTimeInvalid, s.envSrcOk, s.draws)

theorem sources_of_layerA (same : a.layerA = s.layerA) : a.sources = s.sources :=
  have registers : a.layerA.sources = s.layerA.sources := congrArg State.sources same
  registers

/-- The two layers agree on what a source event reads. -/
theorem Sim.sources (sim : Sim a b ws rs hs) : a.sources = b.sources := by
  cases sim with
  | level _ same | bracket _ _ _ _ _ _ same | programmed _ _ _ _ _ same | tick _ _ _ _ same | rx _ _ _ _ same =>
    exact (sources_of_layerA same :)

/-- An event that lowers no flag and keeps a stored datum keeps the relation. -/
theorem Sim.withSources {k : State} (sim : Sim a b ws rs hs) (tick : b.tickPend = true → k.tickPend = true)
    (rx : b.rxPend = true → k.rxPend = true) (datum : rxStored b = true → b.rxPend = true → k.rxData = b.rxData) :
    Sim (a.withSources k) (b.withSources k) ws rs hs := by
  have rxData : a.rxData = b.rxData := by
    have sources := sim.sources
    simp only [State.sources, Prod.mk.injEq] at sources
    tauto
  cases sim with
  | level ctx same level => exact .level ctx (layerA_withSources k same) (level.congr rfl)
  | bracket ctx main word inside upTo masked same progress =>
    exact .bracket ctx main word inside upTo masked (layerA_withSources k same) (progress.withSources k)
  | programmed ctx main writes upTo masked same progress =>
    exact .programmed (b := b.withSources k) ctx main writes upTo masked (layerA_withSources k same)
      ⟨progress.sampled, progress.off, progress.on, progress.counts, progress.periods⟩
  | tick ctx enabled bound pending same level progress =>
    exact .tick ctx enabled bound (tick pending) (layerA_withSources k same) (level.congr rfl)
      ⟨progress.started, progress.upTo, progress.sum, progress.carry⟩
  | @rx _ _ u ctx enabled bound pending same level progress =>
    have params : a.params = b.params := (congrArg Prod.fst (sources_of_layerA same) :)
    refine .rx ctx enabled bound (rx pending) (layerA_withSources k same) (level.congr rfl)
      ⟨progress.upTo, progress.counted, progress.room, progress.headed, progress.index, ?_, progress.head, progress.count⟩
    refine progress.stored.trans ?_
    by_cases stored : 5 ≤ u ∧ a.count.toNat ≠ a.params.n
    · have kept := datum ((rxStored_of_progress ctx params progress).mpr stored) pending
      simp [stored, State.withSources, kept, rxData]
    · have stored' : ¬ (5 ≤ u ∧ (a.withSources k).count.toNat ≠ (a.withSources k).params.n) := stored
      rw [if_neg stored, if_neg stored']
      rfl

end Sys2Proof.Machine
end

section
/-! The micro-steps of a command and the relation (R91, R112): each goes on, or is the one at which Layer A runs the command,
or drives the response. -/

namespace Sys2Proof.Machine

variable {a a' b b' : State} {u : Nat} {cmd : Instr} {w : Word} {ws : List Word} {rs : List Response}

/-- How Layer A answers a micro-step of a command. -/
inductive MainReply (a b' : State) (cmd : Instr) : List Word → List Response → Prop where
  | goes {ws : List Word} {rs : List Response} (silent : b'.resp = none) (sim : Sim a b' ws rs []) : MainReply a b' cmd ws rs
  | runs {w : Word} {a' : State} (silent : b'.resp = none) (effect : Effect a cmd a')
      (answer : a'.resp = some (answerOf b' cmd)) (sim : Sim a' b' [] [answerOf b' cmd] []) : MainReply a b' cmd [w] []
  | answers {r : Response} (answer : b'.resp = some r) (sim : Sim a b' [] [] []) : MainReply a b' cmd [] [r]

theorem Sim.of_main (ctx : b.micro.ctx = .main) (same : a.layerA = b.layerA) (level : Level b ws rs) :
    Sim a b ws rs [] :=
  .level (by simp [ctx]) same level

/-- Layer A runs the command at the micro-step before its last. -/
theorem MainReply.runs_before_last (effect : Effect a cmd a') (answer : a'.resp = some (answerOf b' cmd))
    (silent : b'.resp = none) (ctx : b'.micro.ctx = .main)
    (main : b'.micro.main = .busy cmd (lastMicro b'.params.wDp cmd)) (same : a'.layerA = b'.layerA) :
    MainReply a b' cmd [w] [] :=
  .runs silent effect answer (.of_main ctx same (.answered main))

/-- A micro-step inside a bracket that leaves Layer A where it is. -/
theorem MainReply.goes_inside {v : Nat} (word : decodeHost b.params.wT w = some cmd)
    (upTo : v < lastMicro b.params.wDp cmd) (inside : 2 ≤ v) (params : b'.params = b.params) (silent : b'.resp = none)
    (ctx : b'.micro.ctx = .main) (main : b'.micro.main = .busy cmd v) (masked : b'.ie = false)
    (same : a.layerA = (unbracket a b').layerA) (progress : Progress a b' cmd v) : MainReply a b' cmd [w] [] :=
  .goes silent (.bracket ctx main (params ▸ word) inside (params ▸ upTo) masked same progress)

/-- States that agree at Layer A differ in the Layer B state and the response alone. -/
theorem exists_of_layerA (same : a.layerA = b.layerA) : ∃ m r, a = { b with micro := m, resp := r } := by
  have whole : { a.layerA with micro := a.micro, resp := a.resp } = { b.layerA with micro := a.micro, resp := a.resp } := by
    rw [same]
  exact ⟨_, _, whole⟩

theorem registers_of_layerA (same : a.layerA = b.layerA) :
    a.acc = b.acc ∧ a.tickPeriodMs = b.tickPeriodMs ∧ a.fault = b.fault ∧ a.params = b.params ∧ a.buf = b.buf ∧
      a.rxData = b.rxData ∧ a.envSrcOk = b.envSrcOk := by
  obtain ⟨m, r, rfl⟩ := exists_of_layerA same
  exact ⟨rfl, rfl, rfl, rfl, rfl, rfl, rfl⟩

theorem lanes_pos (d : DataPath) : 1 ≤ d.lanes ∧ 1 ≤ d.cntLanes := by
  cases d <;> simp

/-! ## The last micro-step -/

theorem MainEffect.last_or_before (h : MainEffect b cmd u b') :
    u < lastMicro b.params.wDp cmd ∨
      u = lastMicro b.params.wDp cmd ∧ b' = { b with resp := some (answerOf b cmd), micro.main := .idle } := by
  cases h with
  | answer isLast => exact .inr ⟨isLast, rfl⟩
  | predicate reads => obtain rfl | rfl | rfl := reads <;> simp [lastMicro]
  | mask brackets => exact .inl (by have := two_lt_lastMicro b.params.wDp brackets; omega)
  | ringCount ring | ringEmpty ring | ringOccupied ring | ringTail ring | ringRead ring =>
    obtain rfl | rfl := ring <;> simp [lastMicro]
  | readLane reads =>
    obtain ⟨-, last⟩ := lastMicro_of_snapshots b.params.wDp reads
    exact .inl (by omega)
  | disable writes | sample writes | countLane writes | periodLane writes | enable writes =>
    obtain ⟨-, last⟩ := lastMicro_of_programs b.params.wDp writes
    exact .inl (by omega)
  | unmask => exact .inl (by omega)
  | critEnter | critExit | bindTick | bindRx | init | popTail | popCount | statusFault | statusEnable =>
    simp [lastMicro]

theorem MainEffect.of_last (h : MainEffect b cmd u b') (isLast : u = lastMicro b.params.wDp cmd) :
    b' = { b with resp := some (answerOf b cmd), micro.main := .idle } := by
  obtain before | ⟨-, eq⟩ := h.last_or_before
  · omega
  · exact eq

/-! ## The first access -/

/-- The access of an unbracketed command is where Layer A runs it; the first of a bracketed one masks (R48). -/
theorem MainEffect.reply_of_first (h : MainEffect b cmd 1 b') (ctx : b.micro.ctx = .main)
    (word : decodeHost b.params.wT w = some cmd) (same : a.layerA = b.layerA) : MainReply a b' cmd [w] [] := by
  generalize one : 1 = u at h
  cases h with
  | critEnter =>
    obtain ⟨m, r, rfl⟩ := exists_of_layerA same
    exact .runs_before_last .critEnter rfl rfl ctx rfl rfl
  | critExit token =>
    obtain ⟨m, r, rfl⟩ := exists_of_layerA same
    exact .runs_before_last (.critExit token) rfl rfl ctx rfl rfl
  | bindTick =>
    obtain ⟨m, r, rfl⟩ := exists_of_layerA same
    exact .runs_before_last .bindTick rfl rfl ctx rfl rfl
  | bindRx =>
    obtain ⟨m, r, rfl⟩ := exists_of_layerA same
    exact .runs_before_last .bindRx rfl rfl ctx rfl rfl
  | predicate reads =>
    obtain ⟨m, r, rfl⟩ := exists_of_layerA same
    obtain rfl | rfl | rfl := reads
    · exact .runs_before_last .isEmpty rfl rfl ctx rfl rfl
    · exact .runs_before_last .isFull rfl rfl ctx rfl rfl
    · exact .runs_before_last .avail rfl rfl ctx rfl rfl
  | init =>
    obtain ⟨m, r, rfl⟩ := exists_of_layerA same
    exact .runs_before_last .init rfl rfl ctx rfl rfl
  | mask brackets =>
    obtain ⟨m, r, rfl⟩ := exists_of_layerA same
    refine .goes rfl (.bracket ctx rfl word le_rfl (two_lt_lastMicro _ brackets) rfl rfl ?_)
    cases cmd with
    | rbPop | rbPeek => exact ⟨rfl, by omega, by omega, by omega, by omega, rfl, rfl⟩
    | clkStatus => exact ⟨⟨rfl, rfl, rfl⟩, by omega, by omega⟩
    | clkGetMs | clkGetPeriod => exact ⟨⟨rfl, rfl, rfl⟩, by omega⟩
    | clkSetPeriod | clkStop => exact ⟨by omega, rfl, rfl, id, by omega⟩
    | _ => cases brackets
  | unmask brackets beforeLast =>
    have last := two_lt_lastMicro b.params.wDp brackets
    omega
  | answer isLast =>
    have last := one_lt_lastMicro b.params.wDp (decodeHost_some_iff.mp word).2
    omega
  | readLane | countLane | periodLane | enable => omega
  | ringCount | ringEmpty | ringOccupied | ringTail | ringRead | popTail | popCount | statusFault | statusEnable
  | disable | sample => cases one

/-! ## Inside a bracket -/

theorem progress_ring (ring : cmd = .rbPop ∨ cmd = .rbPeek) : Progress a b cmd u ↔ RingProgress a b cmd u := by
  obtain rfl | rfl := ring <;> rfl

/-- With the bracket left, Layer A has what the bracket wrote. -/
theorem layerA_of_unbracket {tail count : Byte} (same : a.layerA = (unbracket a b).layerA) (tail_ : b.tail = tail)
    (count_ : b.count = count) (enable : b.srcEn = a.srcEn) :
    State.layerA { a with tail := tail, count := count } = State.layerA { b with ie := b.micro.saved } := by
  subst tail count
  calc State.layerA { a with tail := b.tail, count := b.count }
      = State.layerA { unbracket a b with tail := b.tail, count := b.count } :=
        congrArg (fun s : State => { s with tail := b.tail, count := b.count }) same
    _ = State.layerA { b with ie := b.micro.saved } := by rw [unbracket, ← enable]

/-- Where a bracket is left Layer A runs the command. -/
theorem MainEffect.reply_of_unmask (brackets : bracketed cmd = true) (beforeLast : u + 1 = lastMicro b.params.wDp cmd)
    (ctx : b.micro.ctx = .main) (same : a.layerA = (unbracket a b).layerA) (progress : Progress a b cmd u) :
    MainReply a { b with ie := b.micro.saved, resp := none, micro.main := .busy cmd (u + 1) } cmd [w] [] := by
  have main : MainSeq.busy cmd (u + 1) = .busy cmd (lastMicro b.params.wDp cmd) := by rw [beforeLast]
  cases cmd with
  | rbPop =>
    obtain rfl : u = 8 := Nat.succ.inj beforeLast
    obtain ⟨enable, counted, -, -, read, tail, count⟩ := progress
    by_cases empty : a.count = 0#8
    · refine .runs_before_last (.popEmpty empty) ?_ rfl ctx main (layerA_of_unbracket same ?_ ?_ enable) <;>
        simp_all [answerOf]
    · obtain ⟨index, value⟩ := read (by omega) empty
      refine .runs_before_last (.pop empty index) ?_ rfl ctx main (layerA_of_unbracket same ?_ ?_ enable) <;>
        simp_all [answerOf]
  | rbPeek =>
    obtain rfl : u = 6 := Nat.succ.inj beforeLast
    obtain ⟨enable, counted, -, -, read, tail, count⟩ := progress
    rw [if_neg (by omega)] at tail count
    by_cases empty : a.count = 0#8
    · refine .runs_before_last (.peekEmpty empty) ?_ rfl ctx main (layerA_of_unbracket same ?_ ?_ enable) <;>
        simp_all [answerOf]
    · obtain ⟨index, value⟩ := read (by omega) empty
      refine .runs_before_last (.peek empty index) ?_ rfl ctx main (layerA_of_unbracket same ?_ ?_ enable) <;>
        simp_all [answerOf]
  | clkStatus =>
    obtain rfl : u = 4 := Nat.succ.inj beforeLast
    obtain ⟨⟨tail, count, enable⟩, fault, source⟩ := progress
    refine .runs_before_last .status ?_ rfl ctx main (layerA_of_unbracket same tail count enable)
    obtain ⟨-, -, fault', -⟩ := registers_of_layerA same
    simp [answerOf, fault, source, fault', enable, unbracket]
  | clkGetMs =>
    obtain ⟨⟨tail, count, enable⟩, lanes⟩ := progress
    refine .runs_before_last .getMs ?_ rfl ctx main (layerA_of_unbracket same tail count enable)
    obtain ⟨acc, -⟩ := registers_of_layerA same
    simp only [lastMicro] at beforeLast
    have whole : b.micro.tmp = b.acc := eq_of_lanes32 fun i lane => lanes i lane (by omega)
    exact congrArg (fun d => some (Response.mk .ok d)) (acc.trans whole.symm)
  | clkGetPeriod =>
    obtain ⟨⟨tail, count, enable⟩, lanes⟩ := progress
    refine .runs_before_last .getPeriod ?_ rfl ctx main (layerA_of_unbracket same tail count enable)
    obtain ⟨-, period, -⟩ := registers_of_layerA same
    simp only [lastMicro] at beforeLast
    have whole : b.micro.tmp = b.tickPeriodMs := eq_of_lanes32 fun i lane => lanes i lane (by omega)
    exact congrArg (fun d => some (Response.mk .ok d)) (period.trans whole.symm)
  | clkSetPeriod | clkStop =>
    obtain ⟨sampled, -⟩ := progress
    have lanes := lanes_pos b.params.wDp
    simp only [lastMicro] at beforeLast
    omega
  | _ => cases brackets

/-- What `CLK.SETPERIOD p` and `CLK.STOP` do at Layer A, by what they sample (R103, R104). -/
theorem effect_of_programs {p q : Half} (writes : programs cmd = some p)
    (sampled : q = if p = 0#16 ∨ a.envSrcOk = false then 0#16 else p) : Effect a cmd { a with
      srcEn := decide (q ≠ 0#16)
      srcCnt := q
      tickPeriodMs := newPeriod a.params.fTick p q
      resp := some (answerOf { a with micro.q := q } cmd) } := by
  cases cmd with
  | clkSetPeriod p' =>
    obtain rfl : p' = p := Option.some.inj writes
    by_cases none_ : p' = 0#16
    · subst p'
      obtain rfl : q = 0#16 := by simpa using sampled
      exact .setPeriodOff
    · by_cases refused : a.envSrcOk = false
      · obtain rfl : q = 0#16 := by simpa [refused] using sampled
        have effect := Effect.setPeriodRefused p' none_ refused
        simpa [newPeriod, answerOf, none_, bitNat] using effect
      · obtain rfl : q = p' := by simpa [refused, none_] using sampled
        have effect := Effect.setPeriod q none_ (by simpa using refused)
        simpa [newPeriod, answerOf, none_, bitNat] using effect
  | clkStop =>
    obtain rfl : 0#16 = p := Option.some.inj writes
    obtain rfl : q = 0#16 := by simpa using sampled
    exact .stop
  | _ => cases writes

/-- The reads of `COUNT`, `TAIL` and `BUF`, and the branch, of `RB.POP` and `RB.PEEK` (R91). -/
theorem MainEffect.reply_of_ring (h : MainEffect b cmd u b') (ring : cmd = .rbPop ∨ cmd = .rbPeek) (inside : 2 ≤ u)
    (upTo : u ≤ 5) (ctx : b.micro.ctx = .main) (word : decodeHost b.params.wT w = some cmd) (masked : b.ie = false)
    (same : a.layerA = (unbracket a b).layerA) (progress : RingProgress a b cmd u) : MainReply a b' cmd [w] [] := by
  have last : 6 < lastMicro b.params.wDp cmd := by obtain rfl | rfl := ring <;> simp [lastMicro]
  obtain ⟨enable, counted, occupied, indexed, read, tail, count⟩ := progress
  rw [if_neg (by omega)] at tail count
  cases h with
  | ringCount =>
    refine .goes_inside word (by omega) (by omega) rfl rfl ctx rfl masked same ((progress_ring ring).mpr ?_)
    exact ⟨enable, fun _ => count, by omega, by omega, by omega, by simpa using tail, by simpa using count⟩
  | ringEmpty _ zero =>
    have empty : a.count = 0#8 := (counted (by omega)).symm.trans zero
    refine .goes_inside word (by omega) (by omega) rfl rfl ctx rfl masked same ((progress_ring ring).mpr ?_)
    refine ⟨enable, fun _ => counted (by omega), fun _ before => ?_, fun _ ne => absurd empty ne,
      fun _ ne => absurd empty ne, by simpa [empty] using tail, by simpa [empty] using count⟩
    exact absurd (show lastMicro b.params.wDp cmd - 1 + 1 < lastMicro b.params.wDp cmd from before) (by omega)
  | ringOccupied _ ne =>
    refine .goes_inside word (by omega) (by omega) rfl rfl ctx rfl masked same ((progress_ring ring).mpr ?_)
    exact ⟨enable, fun _ => counted (by omega), fun _ _ => counted (by omega) ▸ ne, by omega, by omega,
      by simpa using tail, by simpa using count⟩
  | ringTail =>
    refine .goes_inside word (by omega) (by omega) rfl rfl ctx rfl masked same ((progress_ring ring).mpr ?_)
    exact ⟨enable, fun _ => counted (by omega), fun _ _ => occupied (by omega) (by omega), fun _ _ => tail, by omega,
      by simpa using tail, by simpa using count⟩
  | ringRead _ index =>
    have ne := occupied (by omega) (by omega)
    have at_ := indexed (by omega) ne
    obtain ⟨-, -, -, params, buf, -⟩ := registers_of_layerA same
    have inRing : a.tail.toNat < a.params.n := by rw [params, ← at_]; exact index
    have value : elemAt b b.micro.t.toNat = elemAt a a.tail.toNat := by rw [at_, elemAt_congr buf params]; rfl
    refine .goes_inside word (by omega) (by omega) rfl rfl ctx rfl masked same ((progress_ring ring).mpr ?_)
    exact ⟨enable, fun _ => counted (by omega), fun _ _ => ne, fun _ _ => at_, fun _ _ => ⟨inRing, value⟩,
      by simpa using tail, by simpa using count⟩
  | critEnter | critExit | bindTick | bindRx | predicate | init | mask => omega
  | popTail | popCount => omega
  | unmask _ beforeLast => omega
  | answer => omega
  | statusFault | statusEnable => simp at ring
  | readLane reads => obtain rfl | rfl := ring <;> cases reads
  | disable writes | sample writes | countLane writes | periodLane writes | enable writes =>
    obtain rfl | rfl := ring <;> cases writes

/-- The lanes of a register read or written so far, and the next one. -/
theorem lanes_grow32 {d : DataPath} {x y : Word} {i : Nat} (isLane : i < d.lanes)
    (known : ∀ j < d.lanes, j < i → lane d x.toNat j = lane d y.toNat j) :
    ∀ j < d.lanes, j < i + 1 → lane d (setLane32 d x i (lane d y.toNat i)).toNat j = lane d y.toNat j := by
  intro j jLane upTo
  rw [lane_setLane32 d x _ isLane jLane]
  split
  · subst j; exact Nat.mod_eq_of_lt (lane_lt d _ _)
  · exact known j jLane (by omega)

theorem progress_snapshot {reg : Word} (reads : snapshots b cmd = some reg) : Progress a b cmd u ↔
    Unwritten a b ∧ ∀ i < b.params.wDp.lanes, 2 + i < u →
      lane b.params.wDp b.micro.tmp.toNat i = lane b.params.wDp reg.toNat i := by
  cases cmd with
  | clkGetMs | clkGetPeriod => obtain rfl := Option.some.inj reads; rfl
  | _ => cases reads

theorem progress_period {p : Half} (writes : programs cmd = some p) : Progress a b cmd u ↔
    u ≤ 3 ∧ b.tail = a.tail ∧ b.count = a.count ∧ (b.srcEn = true → a.srcEn = true) ∧ (u = 3 → b.srcEn = false) := by
  cases cmd with
  | clkSetPeriod | clkStop => rfl
  | _ => cases writes

theorem answerOf_period {p : Half} (writes : programs cmd = some p) (same : a.micro.q = b.micro.q) :
    answerOf a cmd = answerOf b cmd := by
  cases cmd with
  | clkSetPeriod => simp only [answerOf, same]
  | clkStop => rfl
  | _ => cases writes

/-- Where `CLK.SETPERIOD` samples `env.src_ok`, Layer A runs it (R103, R112). -/
theorem MainReply.of_sample {p : Half} (writes : programs cmd = some p) (ctx : b.micro.ctx = .main)
    (masked : b.ie = false) (same : a.layerA = (unbracket a b).layerA) (progress : Progress a b cmd 3) :
    MainReply a { b with
      resp := none
      micro.q := if p = 0#16 ∨ b.envSrcOk = false then 0#16 else p
      micro.main := .busy cmd 4 } cmd [w] [] := by
  obtain ⟨-, tail, count, -, off⟩ := (progress_period writes).mp progress
  obtain ⟨-, -, -, params, -, -, env⟩ := registers_of_layerA same
  obtain ⟨-, last⟩ := lastMicro_of_programs b.params.wDp writes
  generalize sampled : (if p = 0#16 ∨ b.envSrcOk = false then 0#16 else p) = q
  have effect := effect_of_programs (a := a) (q := q) writes (by rw [env]; exact sampled.symm)
  have answer : some (answerOf { a with micro.q := q } cmd) = some (answerOf { b with micro.q := q } cmd) :=
    congrArg some (answerOf_period writes rfl)
  have done : State.layerA { a with
      srcEn := decide (q ≠ 0#16), srcCnt := q, tickPeriodMs := newPeriod a.params.fTick p q } =
      (programmed p { b with micro.q := q }).layerA := by
    calc _ = State.layerA { unbracket a b with
            srcEn := decide (q ≠ 0#16), srcCnt := q, tickPeriodMs := newPeriod a.params.fTick p q } :=
          congrArg (fun s : State => { s with
            srcEn := decide (q ≠ 0#16), srcCnt := q, tickPeriodMs := newPeriod a.params.fTick p q }) same
      _ = _ := by simp only [programmed, unbracket, params, tail, count]; rfl
  exact .runs rfl effect answer (.programmed (p := p) ctx rfl writes (show 4 < lastMicro b.params.wDp cmd by omega) masked
    done ⟨le_rfl, fun _ => off rfl, fun late => by omega, fun i _ early => by omega, fun i _ early => by omega⟩)

/-- A micro-step inside a bracket that Layer A has not run yet: the bracket goes on, or Layer A runs the command. -/
theorem MainEffect.reply_of_bracket (h : MainEffect b cmd u b') (ctx : b.micro.ctx = .main)
    (word : decodeHost b.params.wT w = some cmd) (inside : 2 ≤ u) (upTo : u < lastMicro b.params.wDp cmd)
    (masked : b.ie = false) (same : a.layerA = (unbracket a b).layerA) (progress : Progress a b cmd u) :
    MainReply a b' cmd [w] [] := by
  have effect := h
  cases h with
  | critEnter | critExit | bindTick | bindRx | predicate | init | mask => omega
  | answer isLast => omega
  | unmask brackets beforeLast => exact MainEffect.reply_of_unmask brackets beforeLast ctx same progress
  | ringCount ring | ringEmpty ring | ringOccupied ring | ringTail ring | ringRead ring =>
    exact effect.reply_of_ring ring (by omega) (by omega) ctx word masked same ((progress_ring ring).mp progress)
  | popTail =>
    obtain ⟨enable, counted, occupied, indexed, read, tail, count⟩ := progress
    have ne := occupied (by omega) (by simp [lastMicro])
    refine .goes_inside word (by simp [lastMicro]) (by omega) rfl rfl ctx rfl masked same ?_
    obtain ⟨-, -, -, params, -⟩ := registers_of_layerA same
    exact ⟨enable, fun _ => counted (by omega), fun _ _ => ne, fun _ _ => indexed (by omega) ne,
      fun _ _ => read (by omega) ne, by simp [ne, indexed, params, unbracket], by simpa using count⟩
  | popCount =>
    obtain ⟨enable, counted, occupied, indexed, read, tail, count⟩ := progress
    have ne := occupied (by omega) (by simp [lastMicro])
    refine .goes_inside word (by simp [lastMicro]) (by omega) rfl rfl ctx rfl masked same ?_
    exact ⟨enable, fun _ => counted (by omega), fun _ _ => ne, fun _ _ => indexed (by omega) ne,
      fun _ _ => read (by omega) ne, by simpa using tail, by simp [ne, counted]⟩
  | statusFault =>
    obtain ⟨unwritten, fault, source⟩ := progress
    exact .goes_inside word (by simp [lastMicro]) (by omega) rfl rfl ctx rfl masked same ⟨unwritten, fun _ => rfl, by omega⟩
  | statusEnable =>
    obtain ⟨unwritten, fault, source⟩ := progress
    exact .goes_inside word (by simp [lastMicro]) (by omega) rfl rfl ctx rfl masked same
      ⟨unwritten, fun _ => fault (by omega), fun _ => rfl⟩
  | readLane reads i isLane =>
    obtain ⟨unwritten, lanes⟩ := (progress_snapshot reads).mp progress
    obtain ⟨-, last⟩ := lastMicro_of_snapshots b.params.wDp reads
    have grown := lanes_grow32 isLane fun j jLane upTo => lanes j jLane (by omega)
    refine .goes_inside word (by omega) (by omega) rfl rfl ctx rfl masked same ?_
    refine (progress_snapshot ?_).mpr ⟨unwritten, fun j jLane upTo => grown j jLane (by omega)⟩
    exact reads
  | disable writes =>
    obtain ⟨-, tail, count, -⟩ := (progress_period writes).mp progress
    obtain ⟨-, last⟩ := lastMicro_of_programs b.params.wDp writes
    refine .goes_inside word (by omega) (by omega) rfl rfl ctx rfl masked same ((progress_period writes).mpr ?_)
    exact ⟨le_rfl, tail, count, fun on => (by cases on), fun _ => rfl⟩
  | sample writes => exact .of_sample writes ctx masked same progress
  | countLane writes | periodLane writes | enable writes =>
    obtain ⟨early, -⟩ := (progress_period writes).mp progress
    omega

/-! ## `CLK.SETPERIOD` past its sample -/

theorem lanes_grow16 {d : DataPath} {x y : Half} {i : Nat} (isLane : i < d.cntLanes)
    (known : ∀ j < d.cntLanes, j < i → lane d x.toNat j = lane d y.toNat j) :
    ∀ j < d.cntLanes, j < i + 1 → lane d (setLane16 d x i (lane d y.toNat i)).toNat j = lane d y.toNat j := by
  intro j jLane upTo
  have narrow : lane d y.toNat i < 2 ^ 16 := by
    have le : lane d y.toNat i ≤ y.toNat := (Nat.mod_le _ _).trans (Nat.div_le_self _ _)
    have := y.isLt
    omega
  rw [lane_setLane16 d x _ isLane jLane narrow]
  split
  · subst j; exact Nat.mod_eq_of_lt (lane_lt d _ _)
  · exact known j jLane (by omega)

/-- A micro-step of the programming that leaves Layer A where it is: done. -/
theorem MainReply.goes_programmed {p : Half} {v : Nat} (writes : programs cmd = some p)
    (upTo : v < lastMicro b.params.wDp cmd) (params : b'.params = b.params) (sampled : b'.micro.q = b.micro.q)
    (silent : b'.resp = none) (ctx : b'.micro.ctx = .main) (main : b'.micro.main = .busy cmd v) (masked : b'.ie = false)
    (same : a.layerA = (programmed p b').layerA) (progress : PeriodProgress b.params.wDp b' p v) :
    MainReply a b' cmd [] [answerOf b cmd] := by
  rw [← answerOf_period writes sampled]
  exact .goes silent (.programmed ctx main writes (params ▸ upTo) masked same (params ▸ progress))

/-- When the bracket of `CLK.SETPERIOD` is left, every lane has been written. -/
theorem PeriodProgress.layerA_eq {p : Half} (progress : PeriodProgress b.params.wDp b p u)
    (written : 4 + b.params.wDp.cntLanes + b.params.wDp.lanes < u) :
    (programmed p b).layerA = State.layerA { b with ie := b.micro.saved } := by
  have source := progress.on written
  have count : b.srcCnt = b.micro.q := eq_of_lanes16 fun i isLane => progress.counts i isLane (by omega)
  have period : b.tickPeriodMs = newPeriod b.params.fTick p b.micro.q :=
    eq_of_lanes32 fun i isLane => progress.periods i isLane (by omega)
  rw [programmed, ← source, ← period, ← count]

/-- A micro-step of `CLK.SETPERIOD` or `CLK.STOP` that Layer A has run: the programming goes on, or leaves the bracket. -/
theorem MainEffect.reply_of_programmed {p : Half} (h : MainEffect b cmd u b') (ctx : b.micro.ctx = .main)
    (writes : programs cmd = some p) (upTo : u < lastMicro b.params.wDp cmd) (masked : b.ie = false)
    (same : a.layerA = (programmed p b).layerA) (progress : PeriodProgress b.params.wDp b p u) :
    MainReply a b' cmd [] [answerOf b cmd] := by
  obtain ⟨-, last⟩ := lastMicro_of_programs b.params.wDp writes
  obtain ⟨sampled, off, on, counts, periods⟩ := progress
  cases h with
  | countLane _ i isLane =>
    have grown := lanes_grow16 isLane fun j jLane before => counts j jLane (by omega)
    exact .goes_programmed writes (by omega) rfl rfl rfl ctx rfl masked same
      ⟨by omega, fun _ => off (by omega), fun late => on (by omega),
        fun j jLane before => grown j jLane (by omega), fun j jLane before => periods j jLane (by omega)⟩
  | periodLane writes' i isLane =>
    obtain rfl := Option.some.inj (writes.symm.trans writes')
    have grown := lanes_grow32 isLane fun j jLane before => periods j jLane (by omega)
    exact .goes_programmed writes (by omega) rfl rfl rfl ctx rfl masked same
      ⟨by omega, fun _ => off (by omega), fun late => on (by omega),
        fun j jLane before => counts j jLane (by omega), fun j jLane before => grown j jLane (by omega)⟩
  | enable =>
    refine .goes_programmed writes (by omega) rfl rfl rfl ctx rfl masked same
      ⟨by omega, fun early => by omega, fun _ => ?_, fun j jLane _ => counts j jLane (by omega),
        fun j jLane _ => periods j jLane (by omega)⟩
    simp [off le_rfl]
  | unmask _ beforeLast =>
    have done := same.trans (PeriodProgress.layerA_eq ⟨sampled, off, on, counts, periods⟩ (by omega))
    rw [← answerOf_period (b := b) writes rfl]
    exact .goes rfl (.of_main ctx done (.answered (by rw [beforeLast])))
  | critEnter | critExit | bindTick | bindRx | predicate | init | mask | ringCount | ringEmpty | ringOccupied
  | statusFault | statusEnable | disable | sample => omega
  | ringTail ring | ringRead ring => obtain rfl | rfl := ring <;> cases writes
  | popTail | popCount => cases writes
  | readLane reads =>
    cases cmd with
    | clkGetMs | clkGetPeriod => cases writes
    | _ => cases reads
  | answer => omega

/-! ## Every micro-step of a command -/

/-- Layer A answers every micro-step of a command (R49). -/
theorem Sim.reply {hs : List Channel} (sim : Sim a b ws rs hs) (ctx : b.micro.ctx = .main)
    (main : b.micro.main = .busy cmd u) (h : MainEffect b cmd u b') : hs = [] ∧ MainReply a b' cmd ws rs := by
  have unique {cmd' : Instr} {v : Nat} (other : b.micro.main = .busy cmd' v) : cmd' = cmd ∧ v = u :=
    MainSeq.busy.inj (other.symm.trans main)
  cases sim with
  | level _ same level =>
    refine ⟨rfl, ?_⟩
    cases level with
    | idle idle => cases idle.symm.trans main
    | called called word =>
      obtain ⟨rfl, rfl⟩ := unique called
      exact h.reply_of_first ctx word same
    | answered last =>
      obtain ⟨rfl, rfl⟩ := unique last
      obtain rfl := h.of_last rfl
      exact .answers rfl (.of_main ctx same (.idle rfl))
  | bracket _ busy word inside upTo masked same progress =>
    obtain ⟨rfl, rfl⟩ := unique busy
    exact ⟨rfl, h.reply_of_bracket ctx word inside upTo masked same progress⟩
  | programmed _ busy writes upTo masked same progress =>
    obtain ⟨rfl, rfl⟩ := unique busy
    exact ⟨rfl, h.reply_of_programmed ctx writes upTo masked same progress⟩
  | tick isr | rx isr => cases isr.symm.trans ctx

end Sys2Proof.Machine
end

section
/-! The micro-steps of a handler and the relation (R91, R112): Layer A dispatches where the handler clears its flag. -/

namespace Sys2Proof.Machine

variable {a b b' : State} {u : Nat} {ch : Channel} {ws : List Word} {rs : List Response} {hs : List Channel}

/-! ## The lane addition of `ISR.TICK` (R112) -/

theorem sumAfter_zero (d : DataPath) (x y : Word) : sumAfter d x y 0 = x := by
  simp [sumAfter, Nat.mod_one]

theorem carryAfter_zero (d : DataPath) (x y : Word) : carryAfter d x y 0 = 0 := by
  simp [carryAfter, Nat.mod_one]

/-- The low `k` lanes are whole words of the register. -/
theorem two_pow_lanes_dvd {d : DataPath} {k : Nat} (upTo : k ≤ d.lanes) : 2 ^ (k * d.bits) ∣ 2 ^ 32 := by
  have whole : d.lanes * d.bits = 32 := by cases d <;> rfl
  exact Nat.pow_dvd_pow 2 (whole ▸ Nat.mul_le_mul_right d.bits upTo)

theorem sumAfter_toNat {d : DataPath} (x y : Word) {k : Nat} (upTo : k ≤ d.lanes) : (sumAfter d x y k).toNat =
    (x.toNat % 2 ^ (k * d.bits) + y.toNat % 2 ^ (k * d.bits)) % 2 ^ (k * d.bits) +
      x.toNat / 2 ^ (k * d.bits) * 2 ^ (k * d.bits) := by
  obtain ⟨rest, whole⟩ := two_pow_lanes_dvd upTo
  have low := Nat.mod_lt (x.toNat % 2 ^ (k * d.bits) + y.toNat % 2 ^ (k * d.bits)) (Nat.two_pow_pos (k * d.bits))
  have high : x.toNat / 2 ^ (k * d.bits) < rest := Nat.div_lt_of_lt_mul (whole ▸ x.isLt)
  rw [sumAfter, BitVec.toNat_ofNat, Nat.mod_eq_of_lt]
  rw [whole]
  generalize 2 ^ (k * d.bits) = W at *
  nlinarith

/-- With every lane added the sum is that of R100. -/
theorem sumAfter_lanes (d : DataPath) (x y : Word) : sumAfter d x y d.lanes = accumulate x y := by
  have whole : d.lanes * d.bits = 32 := by cases d <;> rfl
  have hx := x.isLt
  apply BitVec.eq_of_toNat_eq
  rw [sumAfter_toNat x y le_rfl, accumulate_toNat, whole, Nat.div_eq_of_lt hx]
  simp

/-- Two numbers added in base `B`, at the place of weight `W`: `s` is the sum of what stands below that place. -/
theorem add_at_place {x y s acc t W B : Nat} (hW : 0 < W) (below : s = x % W + y % W) (sum : acc = s % W + x / W * W)
    (place : t = acc / W % B + y / W % B + s / W) :
    acc % W + t % B % B * W + acc / (W * B) * (W * B) =
        (x % (W * B) + y % (W * B)) % (W * B) + x / (W * B) * (W * B) ∧
      t / B = (x % (W * B) + y % (W * B)) / (W * B) := by
  have low : acc % W = s % W := by rw [sum, Nat.add_mul_mod_self_right, Nat.mod_mod]
  have high : acc / W = x / W := by
    rw [sum, Nat.add_mul_div_right _ _ hW, Nat.div_eq_of_lt (Nat.mod_lt _ hW), Nat.zero_add]
  have next : x % (W * B) + y % (W * B) = s % W + W * t := by
    have split := Nat.mod_add_div s W
    rw [Nat.mod_mul, Nat.mod_mul, place, high]
    calc x % W + W * (x / W % B) + (y % W + W * (y / W % B)) = s + W * (x / W % B + y / W % B) := by rw [below]; ring
      _ = s % W + W * (s / W) + W * (x / W % B + y / W % B) := by rw [split]
      _ = _ := by ring
  have carry : (s % W + W * t) / W = t := by
    rw [Nat.add_mul_div_left _ _ hW, Nat.div_eq_of_lt (Nat.mod_lt _ hW), Nat.zero_add]
  rw [next, Nat.mod_mul, ← Nat.div_div_eq_div_mul, ← Nat.div_div_eq_div_mul, ← Nat.div_div_eq_div_mul, carry, high, low,
    Nat.add_mul_mod_self_left, Nat.mod_mod, Nat.mod_mod, Nat.mul_comm W (t % B)]
  exact ⟨rfl, rfl⟩

/-- One more lane: the two lanes and the carry make the next lane of the sum and the next carry. -/
theorem sumAfter_succ {d : DataPath} {x y acc : Word} {carry : Bool} {i t : Nat} (isLane : i < d.lanes)
    (sum : acc = sumAfter d x y i) (carried : bitNat carry = carryAfter d x y i)
    (place : t = lane d acc.toNat i + lane d y.toNat i + bitNat carry) :
    setLane32 d acc i (t % 2 ^ d.bits) = sumAfter d x y (i + 1) ∧
      bitNat (decide (t / 2 ^ d.bits ≠ 0)) = carryAfter d x y (i + 1) := by
  have total : acc.toNat = _ := sum ▸ sumAfter_toNat x y isLane.le
  rw [carried] at place
  obtain ⟨value, next⟩ := add_at_place (Nat.two_pow_pos (i * d.bits)) rfl total place
  have weight : 2 ^ ((i + 1) * d.bits) = 2 ^ (i * d.bits) * 2 ^ d.bits := by rw [← Nat.pow_add]; congr 1; ring
  refine ⟨?_, ?_⟩
  · rw [setLane32, setLane, sumAfter, weight, value]
  · rw [carryAfter, weight, ← next]
    have atMostOne : t / 2 ^ d.bits < 2 := by
      have pos : 0 < 2 ^ (i * d.bits) * 2 ^ d.bits := by positivity
      have hx := Nat.mod_lt x.toNat pos
      have hy := Nat.mod_lt y.toNat pos
      rw [next]
      generalize 2 ^ (i * d.bits) * 2 ^ d.bits = V at pos hx hy ⊢
      exact Nat.div_lt_of_lt_mul (by omega)
    generalize t / 2 ^ d.bits = c at atMostOne ⊢
    obtain rfl | rfl : c = 0 ∨ c = 1 := by omega
    · rfl
    · rfl

/-! ## The micro-steps of the handlers -/

/-- How Layer A answers a micro-step of a handler: it waits, or dispatches. -/
inductive IsrReply (a b' : State) (ws : List Word) (rs : List Response) : List Channel → Prop where
  | waits {hs : List Channel} (sim : Sim a b' ws rs hs) : IsrReply a b' ws rs hs
  | dispatches {ch : Channel} {a' : State} (performs : performLine (.word (dispatchWord ch)) a = .next a')
      (silent : a'.resp = none) (ready : hostReady a' = true) (sim : Sim a' b' ws rs []) : IsrReply a b' ws rs [ch]

/-- Layer A finds a handler enabled that Layer B has entered (R53, R134). -/
theorem dispatchable_of_layerA (ready : hostReady a = true) (same : a.layerA = b.layerA) (enabled : b.ie = true)
    (bound_ : bound b ch = true) (pending_ : pending b ch = true) : dispatchable ch a = true := by
  obtain ⟨ctx, -⟩ := hostReady_iff.mp ready
  obtain ⟨m, r, rfl⟩ := exists_of_layerA same
  cases ch <;> exact dispatchable_iff.mpr ⟨enabled, bound_, pending_, ctx⟩

/-- A micro-step of `ISR.TICK`: it adds on, or clears the flag and Layer A dispatches (R108, R112). -/
theorem IsrEffect.reply_of_tick (h : IsrEffect b .tick u b') (ready : hostReady a = true)
    (enabled : b.ie = true) (bound_ : b.boundTick = true) (pending_ : b.tickPend = true)
    (same : a.layerA = State.layerA { b with acc := a.acc }) (level : Level b ws rs)
    (progress : TickProgress b.params.wDp a b u) : IsrReply a b' ws rs [.tick] := by
  obtain ⟨started, upTo, sum, carry⟩ := progress
  cases h with
  | tickStart =>
    exact .waits (.tick rfl enabled bound_ pending_ same (level.congr rfl)
      (show TickProgress b.params.wDp a _ 2 from ⟨by omega, by omega, sum, fun _ => (carryAfter_zero ..).symm⟩))
  | tickLane i isLane =>
    rw [Nat.add_sub_cancel_left] at sum carry
    obtain ⟨sum', carry'⟩ := sumAfter_succ (t := laneSum b i) isLane sum (carry (by omega)) rfl
    rw [show i + 1 = 2 + i + 1 - 2 by omega] at sum' carry'
    exact .waits (.tick rfl enabled bound_ pending_ same (level.congr rfl)
      (show TickProgress b.params.wDp a _ (2 + i + 1) from ⟨by omega, by omega, sum', fun _ => carry'⟩))
  | tickClear =>
    rw [Nat.add_sub_cancel_left, sumAfter_lanes] at sum
    obtain ⟨-, period, -⟩ := registers_of_layerA same
    have performs := execIsrTick_next_iff.mpr
      ⟨dispatchable_of_layerA (ch := .tick) ready same enabled bound_ pending_, rfl⟩
    refine .dispatches performs rfl ready (.level ?_ ?_ (level.congr rfl))
    · intro ch u ctx
      cases ctx
      simp only [lastIsrMicro]
      omega
    · have added : accumulate a.acc a.tickPeriodMs = b.acc := by rw [period]; exact sum.symm
      rw [added]
      exact congrArg (fun s : State => { s with acc := b.acc, tickPend := false }) same
  | leave isLast =>
    simp only [lastIsrMicro] at isLast
    omega

/-- The ring registers of Layer B once `ISR.RX` has written them, and its flag cleared. -/
theorem layerA_of_rx {buf : Memory} {head count : Byte}
    (same : a.layerA = State.layerA { b with buf := a.buf, head := a.head, count := a.count }) (buf_ : b.buf = buf)
    (head_ : b.head = head) (count_ : b.count = count) :
    State.layerA { a with buf := buf, head := head, count := count, rxPend := false } =
      State.layerA { b with rxPend := false } := by
  subst buf head count
  exact congrArg (fun s : State => { s with buf := b.buf, head := b.head, count := b.count, rxPend := false }) same

/-- A micro-step of `ISR.RX`: it reads and writes on, or clears the flag and Layer A dispatches (R91, R93). -/
theorem IsrEffect.reply_of_rx (h : IsrEffect b .rx u b') (ready : hostReady a = true)
    (enabled : b.ie = true) (bound_ : b.boundRx = true) (pending_ : b.rxPend = true)
    (same : a.layerA = State.layerA { b with buf := a.buf, head := a.head, count := a.count }) (level : Level b ws rs)
    (progress : RxProgress a b u) : IsrReply a b' ws rs [.rx] := by
  obtain ⟨params, rxData⟩ : a.params = b.params ∧ a.rxData = b.rxData := by
    obtain ⟨-, -, -, params, -, rxData, -⟩ := registers_of_layerA same
    exact ⟨params, rxData⟩
  obtain ⟨upTo, counted, room, headed, index, stored, head, count⟩ := progress
  cases h with
  | rxCount =>
    refine .waits (.rx rfl enabled bound_ pending_ same (level.congr rfl) ?_)
    exact ⟨by omega, fun _ => by simpa using count, by omega, by omega, by omega, by simpa using stored,
      by simpa using head, by simpa using count⟩
  | rxFull found =>
    have full : a.count.toNat = a.params.n := by rw [← counted (by omega), params]; exact found
    refine .waits (.rx rfl enabled bound_ pending_ same (level.congr rfl) ?_)
    exact ⟨by omega, fun _ => counted (by omega), by omega, fun _ ne => absurd full ne, fun _ ne => absurd full ne,
      by simpa [full] using stored, by simpa [full] using head, by simpa [full] using count⟩
  | rxRoom found =>
    have room : a.count.toNat ≠ a.params.n := by rw [← counted (by omega), params]; exact found
    refine .waits (.rx rfl enabled bound_ pending_ same (level.congr rfl) ?_)
    exact ⟨by omega, fun _ => counted (by omega), fun _ _ => room, by omega, by omega,
      by simpa using stored, by simpa using head, by simpa using count⟩
  | rxHead =>
    refine .waits (.rx rfl enabled bound_ pending_ same (level.congr rfl) ?_)
    exact ⟨by omega, fun _ => counted (by omega), fun _ _ => room (by omega) (by omega),
      fun _ _ => by simpa using head, by omega, by simpa using stored, by simpa using head, by simpa using count⟩
  | rxStore inRing =>
    have room := room (by omega) (by omega)
    have at_ := headed (by omega) room
    refine .waits (.rx rfl enabled bound_ pending_ same (level.congr rfl) ?_)
    exact ⟨by omega, fun _ => counted (by omega), fun _ _ => room, fun _ _ => at_,
      fun _ _ => by rw [params, ← at_]; exact inRing, by simp [room, stored, at_, rxData, ← params],
      by simpa using head, by simpa using count⟩
  | rxAdvance =>
    have room := room (by omega) (by omega)
    have at_ := headed (by omega) room
    refine .waits (.rx rfl enabled bound_ pending_ same (level.congr rfl) ?_)
    exact ⟨by omega, fun _ => counted (by omega), fun _ _ => room, fun _ _ => at_, fun _ _ => index (by omega) room,
      by simpa [room] using stored, by simp [room, at_, ← params], by simpa using count⟩
  | rxGrow =>
    have room := room (by omega) (by omega)
    refine .waits (.rx rfl enabled bound_ pending_ same (level.congr rfl) ?_)
    exact ⟨by omega, fun _ => counted (by omega), by omega, fun _ _ => headed (by omega) room, fun _ _ => index (by omega) room,
      by simpa [room] using stored, by simpa [room] using head, by simp [room, counted]⟩
  | rxClear =>
    have enabled_ := dispatchable_of_layerA (ch := .rx) ready same enabled bound_ pending_
    have returns : ∀ ch u, Ctx.isr .rx 8 = .isr ch u → u = lastIsrMicro b.params.wDp ch := by
      intro ch u ctx
      cases ctx
      rfl
    by_cases full : a.count.toNat = a.params.n
    · have performs := execIsrRx_next_iff.mpr ⟨enabled_, .inl ⟨full, rfl⟩⟩
      refine .dispatches performs rfl ready (.level returns (layerA_of_rx same ?_ ?_ ?_) (level.congr rfl))
      · simpa [full] using stored
      · simpa [full] using head
      · simpa [full] using count
    · have performs := execIsrRx_next_iff.mpr ⟨enabled_, .inr ⟨full, index (by omega) full, rfl⟩⟩
      refine .dispatches performs rfl ready (.level returns (layerA_of_rx same ?_ ?_ ?_) (level.congr rfl))
      · simpa [full] using stored
      · simpa [full] using head
      · simpa [full] using count
  | leave isLast =>
    simp only [lastIsrMicro] at isLast
    omega

theorem IsrEffect.of_last (h : IsrEffect b ch u b') (isLast : u = lastIsrMicro b.params.wDp ch) :
    b' = { b with resp := none, micro.ctx := .main } := by
  cases h with
  | leave => rfl
  | tickStart | tickLane | tickClear =>
    simp only [lastIsrMicro] at isLast
    omega
  | _ => cases isLast

/-- Layer A answers every micro-step of a handler (R49). -/
theorem Sim.isr_reply (sim : Sim a b ws rs hs) (ready : hostReady a = true) (ctx : b.micro.ctx = .isr ch u)
    (h : IsrEffect b ch u b') : IsrReply a b' ws rs hs := by
  have unique {c : Channel} {v : Nat} (other : b.micro.ctx = .isr c v) : c = ch ∧ v = u :=
    Ctx.isr.inj (other.symm.trans ctx)
  cases sim with
  | level last same level =>
    obtain rfl := h.of_last (last ch u ctx)
    exact .waits (.of_main rfl same (level.congr rfl))
  | bracket main | programmed main => cases main.symm.trans ctx
  | tick isr enabled bound_ pending_ same level progress =>
    obtain ⟨rfl, rfl⟩ := unique isr
    exact h.reply_of_tick ready enabled bound_ pending_ same level progress
  | rx isr enabled bound_ pending_ same level progress =>
    obtain ⟨rfl, rfl⟩ := unique isr
    exact h.reply_of_rx ready enabled bound_ pending_ same level progress

end Sys2Proof.Machine
end

section
/-! One line of Layer B answered by Layer A, and the refinement of whole runs (R49). -/

namespace Sys2Proof.Machine

variable {a b b' t : State} {l : Line} {ls : List Line} {ws : List Word} {rs : List Response} {hs : List Channel}
  {w : Word} {i : Instr}

/-- The lines of a Layer B run (R8): micro-steps, commands presented, handlers entered, events and whole dispatches. -/
def Line.layerB (l : Line) : Prop :=
  l = .micro ∨ (∃ w, l = .start w) ∨ (∃ ch, l = .enter ch) ∨ ∃ w, l = .word w ∧ isTraceWord w = true

/-- Layer A, standing for Layer B before the line, makes the lines `ks` and stands for it after. -/
def Answered (l : Line) (a b b' : State) (ws : List Word) (rs : List Response) (hs : List Channel) : Prop :=
  ∃ ks a' ws' rs' hs', Refines [l] ks a b a' ⟨ws, rs, hs⟩ ⟨ws', rs', hs'⟩ ∧ Sim a' b' ws' rs' hs' ∧ hostReady a' = true

/-! ## A micro-step -/

theorem performLine_port (ready : hostReady a = true) (word : decodeHost a.params.wT w = some i) :
    performLine (.port w) a = exec i a := by
  simp [performLine, performPort, ready, word]

/-- The word Layer A owes is the one whose command Layer B has in progress. -/
theorem Sim.owed_word {cmd : Instr} {u : Nat} (sim : Sim a b [w] rs hs) (main : b.micro.main = .busy cmd u)
    (ctx : b.micro.ctx = .main) : decodeHost a.params.wT w = some cmd := by
  have params : a.params = b.params := congrArg Prod.fst sim.sources
  have unique {cmd' : Instr} {v : Nat} (other : b.micro.main = .busy cmd' v) : cmd' = cmd :=
    (MainSeq.busy.inj (other.symm.trans main)).1
  rw [params]
  cases sim with
  | level _ _ level =>
    cases level with
    | called busy word => exact unique busy ▸ word
  | bracket _ busy word => exact unique busy ▸ word
  | tick isr | rx isr => cases isr.symm.trans ctx

theorem Sim.answered_of_micro (sim : Sim a b ws rs hs) (ready : hostReady a = true) (h : microStep b = .next b') :
    Answered .micro a b b' ws rs hs := by
  have performs : performLine .micro b = .next b' := h
  obtain ⟨ch, u, ctx, effect⟩ | ⟨ctx, cmd, u, main, effect⟩ := microStep_next h
  · have silent := effect.keeps_mainSide.2
    cases sim.isr_reply ready ctx effect with
    | waits sim' =>
      exact ⟨[], a, ws, rs, hs, .stay performs (by simp [silent]) (by simp [hostWords]) rfl
        (fun _ => rfl) (fun none_ _ => none_), sim', ready⟩
    | @dispatches ch a' performs' silent' ready' sim' =>
      refine ⟨[.word (dispatchWord ch)], a', ws, rs, [], .move performs ?_ (.machine performs') (fun _ => performs')
        ?_ ?_ ?_ ?_ ?_, sim', ready'⟩
      · exact .inr ⟨dispatchWord ch, rfl, by cases ch <;> rfl⟩
      · simp [silent, silent']
      · simp [hostWords]
      · cases ch <;> rfl
      · intro c; cases ch <;> cases c <;> rfl
      · simp
  · obtain ⟨rfl, reply⟩ := sim.reply ctx main effect
    cases reply with
    | goes silent sim' =>
      exact ⟨[], a, ws, rs, [], .stay performs (by simp [silent]) (by simp [hostWords]) rfl
        (fun _ => rfl) (fun none_ _ => none_), sim', ready⟩
    | @runs w a' silent effect' answer sim' =>
      have performs' := (performLine_port ready (sim.owed_word main ctx)).trans effect'.exec_eq
      refine ⟨[.port w], a', [], _, [], .move performs ?_ (.machine performs') (fun _ => performs')
        ?_ ?_ ?_ ?_ ?_, sim', effect'.keeps_ready ready⟩
      · exact .inl ⟨w, rfl⟩
      · simp [silent, answer]
      · simp [hostWords]
      · rfl
      · intro ch; rfl
      · exact fun _ => ⟨rfl, rfl⟩
    | @answers r answer sim' =>
      exact ⟨[], a, [], [], [], .stay performs (by simp [answer]) rfl rfl (fun _ => rfl) (fun _ _ => rfl), sim', ready⟩

/-! ## A command presented, a handler entered -/

theorem Sim.of_idle (sim : Sim a b ws rs hs) (idle : hostReady b = true) :
    ws = [] ∧ rs = [] ∧ hs = [] ∧ a.layerA = b.layerA := by
  obtain ⟨ctx, main⟩ := hostReady_iff.mp idle
  cases sim with
  | level _ same level =>
    cases level with
    | idle => exact ⟨rfl, rfl, rfl, same⟩
    | called busy | answered busy => cases busy.symm.trans main
  | bracket _ busy | programmed _ busy => cases busy.symm.trans main
  | tick isr | rx isr => cases isr.symm.trans ctx

/-- Where `IE = 1` no bracket is in progress: Layer A is where Layer B is. -/
theorem Sim.of_enabled (sim : Sim a b ws rs hs) (ctx : b.micro.ctx = .main) (enabled : b.ie = true) :
    hs = [] ∧ a.layerA = b.layerA ∧ Level b ws rs := by
  cases sim with
  | level _ same level => exact ⟨rfl, same, level⟩
  | bracket _ _ _ _ _ masked | programmed _ _ _ _ masked => cases masked.symm.trans enabled
  | tick isr | rx isr => cases isr.symm.trans ctx

theorem Sim.answered_of_start (sim : Sim a b ws rs hs) (ready : hostReady a = true)
    (performs : performLine (.start w) b = .next b') : Answered (.start w) a b b' ws rs hs := by
  cases LineEffect.of_perform performs with
  | start idle decodes host =>
    obtain ⟨rfl, rfl, rfl, same⟩ := sim.of_idle idle
    obtain ⟨ctx, -⟩ := hostReady_iff.mp idle
    exact ⟨[], a, [w], [], [], .stay performs rfl rfl rfl (fun _ => rfl) (fun _ _ => rfl),
      .of_main ctx same (.called rfl (decodeHost_some_iff.mpr ⟨decodes, host⟩)), ready⟩
  | startIllegal idle none_ =>
    obtain ⟨rfl, rfl, rfl, same⟩ := sim.of_idle idle
    obtain ⟨ctx, main⟩ := hostReady_iff.mp idle
    have params : a.params = b.params := congrArg Prod.fst sim.sources
    have performs' : performLine (.port w) a = .next (respondIllegal a) := by
      simp only [performLine, performPort, ready, params, none_, if_true]
    exact ⟨[.port w], respondIllegal a, [], [], [], .move performs (.inl ⟨w, rfl⟩) (.machine performs')
      (fun _ => performs') rfl rfl rfl (fun _ => rfl) (fun _ => ⟨rfl, rfl⟩), .of_main ctx same (.idle main), ready⟩

/-- The handler entered has read nothing, and Layer A has not dispatched it. -/
theorem Sim.of_enter {ch : Channel} (enabled : dispatchable ch b = true) (same : a.layerA = b.layerA)
    (level : Level b ws rs) : Sim a (enterHandler ch (silent b)) ws rs [ch] := by
  obtain ⟨ie, bound_, pending_, -⟩ := dispatchable_iff.mp enabled
  obtain ⟨m, r, rfl⟩ := exists_of_layerA same
  cases ch with
  | tick =>
    exact .tick rfl ie bound_ pending_ rfl (level.congr rfl)
      (show TickProgress b.params.wDp _ _ 1 from ⟨le_rfl, by omega, (sumAfter_zero ..).symm, by omega⟩)
  | rx =>
    exact .rx rfl ie bound_ pending_ rfl (level.congr rfl)
      ⟨by omega, by omega, by omega, by omega, by omega, rfl, rfl, rfl⟩

theorem Sim.answered_of_enter {ch : Channel} (sim : Sim a b ws rs hs) (ready : hostReady a = true)
    (performs : performLine (.enter ch) b = .next b') : Answered (.enter ch) a b b' ws rs hs := by
  obtain ⟨enabled, rfl⟩ := enter_next_iff.mp performs
  obtain ⟨ie, -, -, ctx⟩ := dispatchable_iff.mp enabled
  obtain ⟨rfl, same, level⟩ := sim.of_enabled ctx ie
  refine ⟨[], a, ws, rs, [ch], .stay performs rfl (by simp [hostWords]) rfl ?_ ?_, .of_enter enabled same level, ready⟩
  · intro c; cases ch <;> cases c <;> rfl
  · exact fun _ noEnter => absurd rfl (noEnter ch)

/-! ## A source event, a whole dispatch -/

/-- A whole dispatch does at Layer A what it does in a gap of Layer B. -/
theorem Effect.at_layerA (h : Effect b i b') (dispatch_ : i.cls = .dispatch) (ready : hostReady a = true)
    (same : a.layerA = b.layerA) :
    ∃ a', Effect a i a' ∧ a'.layerA = b'.layerA ∧ a'.resp = none ∧ b'.answerPart = b.answerPart := by
  obtain ⟨ctx, -⟩ := hostReady_iff.mp ready
  have enabled {ch : Channel} (found : dispatchable ch b = true) : dispatchable ch a = true := by
    obtain ⟨ie, bound_, pending_, -⟩ := dispatchable_iff.mp found
    exact dispatchable_of_layerA ready same ie bound_ pending_
  cases h with
  | tick found =>
    have found := enabled found
    obtain ⟨m, r, rfl⟩ := exists_of_layerA same
    exact ⟨_, .tick found, rfl, rfl, rfl⟩
  | rxDrop found full =>
    have found := enabled found
    obtain ⟨m, r, rfl⟩ := exists_of_layerA same
    exact ⟨_, .rxDrop found full, rfl, rfl, rfl⟩
  | rxPush found room index =>
    have found := enabled found
    obtain ⟨m, r, rfl⟩ := exists_of_layerA same
    exact ⟨_, .rxPush found room index, rfl, rfl, rfl⟩
  | _ => cases dispatch_

theorem Effect.ie_and_ctx_of_dispatch (h : Effect b i b') (dispatch_ : i.cls = .dispatch) :
    b.ie = true ∧ b.micro.ctx = .main := by
  cases h with
  | tick found | rxDrop found | rxPush found =>
    obtain ⟨ie, -, -, ctx⟩ := dispatchable_iff.mp found
    exact ⟨ie, ctx⟩
  | _ => cases dispatch_

theorem srcEn_of_layerA (same : a.layerA = b.layerA) : a.srcEn = b.srcEn := by
  obtain ⟨m, r, rfl⟩ := exists_of_layerA same
  rfl

/-- A bracket that Layer A has not run may have cleared `SRC_EN`, and does not set it. -/
theorem Progress.source_enabled {cmd : Instr} {u : Nat} (progress : Progress a b cmd u) (enabled : b.srcEn = true) :
    a.srcEn = true := by
  cases cmd with
  | rbPop | rbPeek => exact progress.enable ▸ enabled
  | clkStatus | clkGetMs | clkGetPeriod =>
    obtain ⟨⟨-, -, enable⟩, -⟩ := progress
    exact enable ▸ enabled
  | clkSetPeriod | clkStop =>
    obtain ⟨-, -, -, enable, -⟩ := progress
    exact enable enabled
  | _ => exact progress.elim

/-- `EV.TICK` can happen at Layer A where it can at Layer B (R132). -/
theorem Sim.source_enabled (sim : Sim a b ws rs hs) (enabled : b.srcEn = true) : a.srcEn = true := by
  cases sim with
  | level _ same | tick _ _ _ _ same | rx _ _ _ _ same => exact (srcEn_of_layerA same).trans enabled
  | bracket _ _ _ _ _ _ _ progress => exact progress.source_enabled enabled
  | programmed _ _ _ _ _ same progress =>
    rcases Nat.lt_or_ge (4 + b.params.wDp.cntLanes + b.params.wDp.lanes) _ with written | early
    · exact (srcEn_of_layerA same).trans ((progress.on written).symm.trans enabled)
    · cases (progress.off early).symm.trans enabled

/-- Where the receive handler has stored its datum and not cleared the flag, the flag is raised (R91). -/
theorem Sim.waiting_of_stored (sim : Sim a b ws rs hs) (stored : rxStored b = true) : b.rxPend = true := by
  cases sim with
  | level last =>
    unfold rxStored at stored
    split at stored
    · cases stored
    · cases stored
    · obtain rfl := last _ _ ‹_›
      simp [lastIsrMicro] at stored
  | bracket ctx | programmed ctx => simp [rxStored, ctx] at stored
  | tick ctx => simp [rxStored, ctx] at stored
  | rx _ _ _ pending => exact pending

/-- An event does to the registers of the sources at Layer A what it does at Layer B, unless it is a datum that arrives
while the receive handler has stored its own (R132, R133, R149). -/
theorem Effect.event_at_layerA (h : Effect b i b') (event : i.cls = .sourceEvent) (ready : hostReady a = true)
    (sources : a.sources = b.sources) (source : b.srcEn = true → a.srcEn = true)
    (quiet : (∃ d, i = .evRx d) → rxStored b = false) : Effect a i (a.withSources b') := by
  have notStored : rxStored a = false := rxStored_of_main (hostReady_iff.mp ready).1
  simp only [State.sources, Prod.mk.injEq] at sources
  obtain ⟨params, tickPend, rxPend, rxData, invalid, ok, draws⟩ := sources
  cases h with
  | tickEvent enabled =>
    have effect := Effect.tickEvent (source enabled)
    simpa only [State.withSources, ← rxPend, ← rxData, ← invalid, ← ok, ← draws] using effect
  | rxEvent d free =>
    have effect := Effect.rxEvent d (rxPend.trans free)
    simpa only [State.withSources, ← params, ← tickPend, ← invalid, ← ok, ← draws] using effect
  | rxOverrun d waiting =>
    have effect := Effect.rxOverrun d (rxPend.trans waiting)
    rw [notStored] at effect
    simpa only [State.withSources, quiet ⟨d, rfl⟩, ← params, ← tickPend, ← rxData, ← invalid, ← ok, ← draws] using effect
  | envEvent ok' invalid' =>
    have effect := Effect.envEvent (s := a) ok' invalid'
    simpa only [State.withSources, ← tickPend, ← rxPend, ← rxData, ← draws] using effect
  | _ => cases event

/-- A datum that arrives while the receive handler has stored its own is lost at Layer B; at Layer A it is an overrun that
keeps the old datum, which the spec admits (R133; log entry 23). -/
theorem admits_of_stored {d : Elem} (h : Effect b (.evRx d) b') (ready : hostReady a = true)
    (sources : a.sources = b.sources) (stored : rxStored b = true) (waiting : b.rxPend = true)
    (decodes : decode b.params.wT w = .ok (.evRx d)) : Admits a (.word w) (a.withSources b') := by
  simp only [State.sources, Prod.mk.injEq] at sources
  obtain ⟨params, tickPend, rxPend, rxData, invalid, ok, draws⟩ := sources
  have overrun := Admits.overrun (s := a) true (params ▸ decodes) (rxPend.trans waiting)
    (rxStored_of_main (hostReady_iff.mp ready).1)
  cases h with
  | rxEvent _ free => cases free.symm.trans waiting
  | rxOverrun =>
    have eq : Machine.overrun true d (silent a) = a.withSources { b with
        rxPend := true
        rxData := if rxStored b || Config.overrunKeepsOld b.draws then b.rxData else fitElem b.params.wT d
        draws := b.draws + 1
        resp := none } := by
      simp [Machine.overrun, silent, State.withSources, stored, ← tickPend, ← rxData, ← invalid, ← ok, ← draws,
        rxPend.trans waiting]
    exact eq ▸ overrun

/-- A quiet line is no datum where the receive handler has stored its own (log entry 23). -/
theorem not_stored_of_quiet {d : Elem} (decodes : decode b.params.wT w = .ok (.evRx d))
    (quiet : receiveQuiet [.word w] b = true) : rxStored b = false := by
  obtain ⟨op, -⟩ := decodeOp_ok (decode_ok_iff.mp decodes).2
  simp only [receiveQuiet, Bool.and_eq_true, Bool.not_eq_true'] at quiet
  simpa [op, Instr.opcode] using quiet.1

theorem Sim.answered_of_event (sim : Sim a b ws rs hs) (ready : hostReady a = true)
    (decodes : decode b.params.wT w = .ok i) (event : i.cls = .sourceEvent) (effect : Effect b i b')
    (performs : performLine (.word w) b = .next b') : Answered (.word w) a b b' ws rs hs := by
  have notHost : i.cls ≠ .hostCommand := by simp [event]
  have params : a.params = b.params := congrArg Prod.fst sim.sources
  obtain ⟨same, tick, rx, kept⟩ := effect.of_event event
  have machine (quiet : (∃ d, i = .evRx d) → rxStored b = false) :
      performLine (.word w) a = .next (a.withSources b') :=
    (performWord_eq_exec (params ▸ decodes) (fun host => absurd host notHost)).trans
      (effect.event_at_layerA event ready sim.sources sim.source_enabled quiet).exec_eq
  have admits : Admits a (.word w) (a.withSources b') := by
    by_cases lost : (∃ d, i = .evRx d) ∧ rxStored b = true
    · obtain ⟨⟨d, rfl⟩, stored⟩ := lost
      exact admits_of_stored effect ready sim.sources stored (sim.waiting_of_stored stored) decodes
    · exact .machine (machine fun isRx => Bool.eq_false_iff.mpr fun stored => lost ⟨isRx, stored⟩)
  have trace : isTraceWord w = true := by simp [isTraceWord_of_decode decodes, event]
  have sim' : Sim (a.withSources b') b' ws rs hs := by
    have kept' := sim.withSources (k := b') tick rx kept
    rwa [← same] at kept'
  have silent : b'.resp = none := congrArg State.resp same
  refine ⟨[.word w], a.withSources b', ws, rs, hs, .move performs (.inr ⟨w, rfl, trace⟩) admits (fun quiet => machine ?_)
    ?_ ?_ rfl ?_ ?_, sim', ready⟩
  · rintro ⟨d, rfl⟩
    exact not_stored_of_quiet decodes quiet
  · simp [silent, State.withSources]
  · simp [hostWords]
  · exact fun _ => Nat.add_comm _ _
  · exact fun none_ => ⟨rfl, none_⟩

theorem Sim.answered_of_dispatch (sim : Sim a b ws rs hs) (ready : hostReady a = true)
    (decodes : decode b.params.wT w = .ok i) (dispatch_ : i.cls = .dispatch) (effect : Effect b i b')
    (performs : performLine (.word w) b = .next b') : Answered (.word w) a b b' ws rs hs := by
  have notHost : i.cls ≠ .hostCommand := by simp [dispatch_]
  have params : a.params = b.params := congrArg Prod.fst sim.sources
  obtain ⟨enabled, ctx⟩ := effect.ie_and_ctx_of_dispatch dispatch_
  obtain ⟨rfl, same, level⟩ := sim.of_enabled ctx enabled
  obtain ⟨a', effect', same', silent', main⟩ := effect.at_layerA dispatch_ ready same
  have performs' := (performWord_eq_exec (params ▸ decodes) (fun host => absurd host notHost)).trans effect'.exec_eq
  have trace : isTraceWord w = true := by simp [isTraceWord_of_decode decodes, dispatch_]
  have silent : b'.resp = none := (effect.keeps_mainSide notHost).2
  refine ⟨[.word w], a', ws, rs, [], .move performs (.inr ⟨w, rfl, trace⟩) (.machine performs') (fun _ => performs')
    ?_ ?_ rfl ?_ ?_, .of_main (effect.keeps_micro ▸ ctx) same' (level.congr main), effect'.keeps_ready ready⟩
  · simp [silent, silent']
  · simp [hostWords]
  · exact fun _ => Nat.add_comm _ _
  · exact fun none_ => ⟨rfl, none_⟩

/-! ## A line, a run -/

/-- Layer A answers every line of a Layer B run (R49). -/
theorem Sim.answered (sim : Sim a b ws rs hs) (ready : hostReady a = true) (line : l.layerB)
    (performs : performLine l b = .next b') : Answered l a b b' ws rs hs := by
  obtain rfl | ⟨w, rfl⟩ | ⟨ch, rfl⟩ | ⟨w, rfl, trace⟩ := line
  · exact sim.answered_of_micro ready performs
  · exact sim.answered_of_start ready performs
  · exact sim.answered_of_enter ready performs
  · cases LineEffect.of_perform performs with
    | @event _ i _ decodes notHost effect =>
      cases cls : i.cls with
      | hostCommand => exact absurd cls notHost
      | sourceEvent => exact sim.answered_of_event ready decodes cls effect performs
      | dispatch => exact sim.answered_of_dispatch ready decodes cls effect performs
    | command _ decodes host => simp [isTraceWord_of_decode decodes, host] at trace
    | illegal _ notTrace => simp [notTrace] at trace

/-- A Layer B run that ends where the host can present a command has its Layer A run (R49). -/
theorem Sim.refines (sim : Sim a b ws rs hs) (ready : hostReady a = true) (lines : ∀ l ∈ ls, l.layerB)
    (run : runLines ls b = .next t) (idle : hostReady t = true) :
    ∃ ks u, Refines ls ks a b u ⟨ws, rs, hs⟩ .settled ∧ u.layerA = t.layerA := by
  induction ls generalizing a b ws rs hs with
  | nil =>
    cases run
    obtain ⟨rfl, rfl, rfl, same⟩ := sim.of_idle idle
    exact ⟨[], a, .nil a _ _, same⟩
  | cons l ls ih =>
    obtain ⟨b', performs, rest⟩ := runLines_cons_next_iff.mp run
    obtain ⟨ks, a', ws', rs', hs', first, sim', ready'⟩ := sim.answered ready (lines l List.mem_cons_self) performs
    obtain ⟨ks', u, more, same⟩ := ih sim' ready' (fun l' mem => lines l' (List.mem_cons_of_mem l mem)) rest
    exact ⟨ks ++ ks', u, first.cons performs more, same⟩

/-- A run from a state in which the host can present a command: nothing is owed before or after. -/
theorem exists_refines {s : State} (start : hostReady s = true) (lines : ∀ l ∈ ls, l.layerB)
    (run : runLines ls s = .next t) (idle : hostReady t = true) :
    ∃ ks u, Refines ls ks s s u .settled .settled ∧ u.layerA = t.layerA := by
  obtain ⟨ctx, main⟩ := hostReady_iff.mp start
  have sim : Sim s s [] [] [] := .of_main ctx rfl (.idle main)
  exact sim.refines start lines run idle

/-- Only the dispatcher gives the core to a handler (R136). -/
theorem LineEffect.keeps_ctx (h : LineEffect b l b') (noEnter : ∀ ch, l ≠ .enter ch) (ctx : b.micro.ctx = .main) :
    b'.micro.ctx = .main := by
  cases h with
  | command _ _ _ effect => exact effect.keeps_micro ▸ ctx
  | event _ _ effect => exact effect.keeps_micro ▸ ctx
  | port _ _ _ effect => exact effect.keeps_micro ▸ ctx
  | illegal | portIllegal | start | startIllegal => exact ctx
  | reset => rfl
  | enter => exact absurd rfl (noEnter _)
  | micro next =>
    obtain ⟨ch, u, isr, -⟩ | ⟨-, cmd, u, -, effect⟩ := microStep_next next
    · cases isr.symm.trans ctx
    · exact effect.keeps_ctx.trans ctx

/-- Where no handler is entered no line finds the receive handler between storing and clearing. -/
theorem receiveQuiet_of_no_enter (ctx : b.micro.ctx = .main) (noEnter : ∀ l ∈ ls, ∀ ch, l ≠ .enter ch)
    (run : runLines ls b = .next t) : receiveQuiet ls b = true := by
  induction ls generalizing b with
  | nil => rfl
  | cons l ls ih =>
    obtain ⟨b', performs, rest⟩ := runLines_cons_next_iff.mp run
    have ctx' := (LineEffect.of_perform performs).keeps_ctx (noEnter l List.mem_cons_self) ctx
    refine (receiveQuiet_cons_iff performs).mpr
      ⟨?_, ih ctx' (fun l' mem => noEnter l' (List.mem_cons_of_mem l mem)) rest⟩
    cases l <;> simp [receiveQuiet, performs, rxStored_of_main ctx]

/-- Settles O60: the run the relation builds, which is the machine's own where the relation needed no other overrun. -/
theorem layerBRefinesLayerA : Obligations.LayerBRefinesLayerA := by
  intro ls s t start idle lines run
  obtain ⟨ks, u, books, same⟩ := exists_refines start lines run idle
  obtain ⟨rs, answers, admitted, machine⟩ := books.run
  obtain rfl : rs = responses ls s := by simpa [Ledger.settled] using answers
  exact ⟨ks, u, books.lines, by simpa [Ledger.settled] using books.words, books.events,
    fun ch => by simpa [Ledger.settled] using books.handlers ch, admitted, same, machine⟩

/-- Settles O59: with no handler entered, dispatches stay where they are among the events, and the run is the machine's. -/
theorem microRunsRefineCommandRuns : Obligations.MicroRunsRefineCommandRuns := by
  intro ls s t start idle lines run
  have noEnter : ∀ l ∈ ls, ∀ ch, l ≠ .enter ch := by
    rintro l mem ch rfl
    simpa using lines _ mem
  have layerB : ∀ l ∈ ls, l.layerB := fun l mem =>
    (lines l mem).imp_right fun other => other.imp_right .inr
  obtain ⟨ks, u, books, same⟩ := exists_refines start layerB run idle
  obtain ⟨rs, answers, -, machine⟩ := books.run
  obtain rfl : rs = responses ls s := by simpa [Ledger.settled] using answers
  obtain ⟨ran, answered⟩ := machine (receiveQuiet_of_no_enter (hostReady_iff.mp start).1 noEnter run)
  exact ⟨ks, u, books.lines, by simpa [Ledger.settled] using books.words, (books.trace rfl noEnter).1, ran, answered, same⟩

end Sys2Proof.Machine
end

section
/-! The decoder and the encoder are inverse to each other on the well-formed operations (R60, R62, R65, R66). -/

namespace Sys2Proof

variable {wT : Nat} {w : Word} {i : Instr}

/-- The opcode map reads an operation back from its code and operand field (R65, R66). -/
theorem decodeOp_of_wellFormed (wf : i.wellFormed wT = true) : decodeOp wT i.opcode i.operandField = .ok i := by
  cases i with
  | critExit token => cases token <;> rfl
  | irqBind ch => cases ch <;> rfl
  | evEnv ok ti => cases ok <;> cases ti <;> rfl
  | evRx d => exact decodeD_ok.mpr ⟨of_decide_eq_true wf, rfl⟩
  | _ => rfl

/-- A word is the encoding of the operation whose code and operand its fields hold, with `z = 0` (R60). -/
theorem encode_eq_iff : encode i = w ↔ fieldOp w = i.opcode ∧ fieldZ w = 0#8 ∧ fieldImm w = i.operandField := by
  constructor
  · rintro rfl
    exact ⟨fieldOp_encode i, fieldZ_encode i, fieldImm_encode i⟩
  · rintro ⟨op, z, operand⟩
    rw [encode, ← op, ← z, ← operand, word_eq_fields]

/-- A word decodes to exactly the well-formed operation it is the encoding of. -/
theorem decode_ok_iff_encode : decode wT w = .ok i ↔ encode i = w ∧ i.wellFormed wT = true := by
  constructor
  · intro decodes
    obtain ⟨z, decodesOp⟩ := decode_ok_iff.mp decodes
    obtain ⟨op, operand, wf⟩ := decodeOp_ok decodesOp
    exact ⟨encode_eq_iff.mpr ⟨op, z, operand⟩, wf⟩
  · rintro ⟨rfl, wf⟩
    rw [decode_encode_eq, decodeOp_of_wellFormed wf]

/-- Settles O2, by the direction from the encoding to the operation. -/
theorem decodeOfEncode : Obligations.DecodeOfEncode :=
  fun _ _ _ _ wf => decode_ok_iff_encode.mpr ⟨rfl, wf⟩

/-- Settles O3, by the direction from the operation to the encoding. -/
theorem encodeOfDecode : Obligations.EncodeOfDecode :=
  fun _ _ _ _ _ decodes => decode_ok_iff_encode.mp decodes

end Sys2Proof
end

section
/-! The opcode map as a table (R62, R66): each operation has a row, the words that decode to an operation of a row are told
by their fields, and the row's mask and match select exactly those words. -/

namespace Sys2Proof

open Machine (zeroOperandMnemonics)

variable {wT : Nat} {w : Word} {i : Instr} {imm : Half}

/-! ## Rows -/

/-- The format column of R66. -/
def Instr.format : Instr → Format
  | .critExit _ => .s
  | .irqBind _ => .s
  | .clkSetPeriod _ => .p
  | .evRx _ => .d
  | .evEnv _ _ => .e
  | _ => .z

/-- The number of low bits of `imm` that a format uses (R62). -/
def Format.used (wT : Nat) : Format → Nat
  | .z => 0
  | .s => 1
  | .p => 16
  | .d => wT
  | .e => 2

/-- The row of R66 an operation belongs to. -/
def Instr.row (i : Instr) : OpcodeRow := ⟨i.mnemonic, i.opcode, i.format⟩

theorem row_mem_opcodeRows (i : Instr) : i.row ∈ opcodeRows := by
  cases i <;> simp only [Instr.row, Instr.mnemonic, Instr.opcode, Instr.format] <;> decide

/-- An operation is well-formed iff its operand keeps to the bits its format uses (R62, R65). -/
theorem wellFormed_iff : i.wellFormed wT = true ↔ i.operandField.toNat < 2 ^ i.format.used wT := by
  cases i with
  | critExit token => cases token <;> exact iff_of_true rfl (by decide : _ < 2 ^ 1)
  | irqBind ch => cases ch <;> exact iff_of_true rfl (by decide : _ < 2 ^ 1)
  | evEnv ok ti => cases ok <;> cases ti <;> exact iff_of_true rfl (by decide : _ < 2 ^ 2)
  | clkSetPeriod p => exact iff_of_true rfl p.isLt
  | evRx d => exact decide_eq_true_iff
  | _ => exact iff_of_true rfl Nat.one_pos

/-- Every row of R66 is that of a zero-operand operation or of one of the five that take an operand. -/
theorem row_cases : ∀ r ∈ opcodeRows,
    (∃ m ∈ zeroOperandMnemonics, m.2.row = r ∧ r.format = .z ∧ m.2.operandField = 0#16) ∨
    r = (Instr.critExit false).row ∨ r = (Instr.irqBind .tick).row ∨ r = (Instr.clkSetPeriod 0#16).row ∨
    r = (Instr.evRx 0#16).row ∨ r = (Instr.evEnv false false).row := by
  decide

/-- A row has an operation for every operand that keeps to the bits its format uses. -/
theorem exists_instr_of_row {r : OpcodeRow} (mem : r ∈ opcodeRows) (fits : imm.toNat < 2 ^ r.format.used wT) :
    ∃ i : Instr, i.row = r ∧ i.operandField = imm := by
  obtain ⟨m, -, rfl, z, operand⟩ | rfl | rfl | rfl | rfl | rfl := row_cases r mem
  · refine ⟨m.2, rfl, operand.trans (BitVec.eq_of_toNat_eq ?_)⟩
    rw [z] at fits
    exact (Nat.lt_one_iff.mp fits).symm
  · obtain rfl | rfl := half_lt_two fits
    · exact ⟨.critExit false, rfl, rfl⟩
    · exact ⟨.critExit true, rfl, rfl⟩
  · obtain rfl | rfl := half_lt_two fits
    · exact ⟨.irqBind .tick, rfl, rfl⟩
    · exact ⟨.irqBind .rx, rfl, rfl⟩
  · exact ⟨.clkSetPeriod imm, rfl, rfl⟩
  · exact ⟨.evRx imm, rfl, rfl⟩
  · obtain rfl | rfl | rfl | rfl := half_lt_four fits
    · exact ⟨.evEnv false false, rfl, rfl⟩
    · exact ⟨.evEnv false true, rfl, rfl⟩
    · exact ⟨.evEnv true false, rfl, rfl⟩
    · exact ⟨.evEnv true true, rfl, rfl⟩

/-- The words that decode to an operation of a row, field by field (R60, R62). -/
theorem exists_decode_iff {r : OpcodeRow} (mem : r ∈ opcodeRows) :
    (∃ i, decode wT w = .ok i ∧ i.row = r) ↔
      fieldOp w = r.op ∧ fieldZ w = 0#8 ∧ (fieldImm w).toNat < 2 ^ r.format.used wT := by
  constructor
  · rintro ⟨i, decodes, rfl⟩
    obtain ⟨word, wf⟩ := decode_ok_iff_encode.mp decodes
    obtain ⟨op, z, operand⟩ := encode_eq_iff.mp word
    exact ⟨op, z, operand ▸ wellFormed_iff.mp wf⟩
  · rintro ⟨op, z, fits⟩
    obtain ⟨i, rfl, operand⟩ := exists_instr_of_row mem fits
    have word : encode i = w := encode_eq_iff.mpr ⟨op, z, operand.symm⟩
    exact ⟨i, decode_ok_iff_encode.mpr ⟨word, wellFormed_iff.mpr (operand ▸ fits)⟩, rfl⟩

/-! ## Masks -/

/-- A mask clears the low bits its format uses and keeps every other bit (R62). -/
theorem mask_eq (f : Format) : f.mask wT = ~~~ BitVec.ofNat 32 (2 ^ f.used wT - 1) := by
  cases f with
  | d => exact BitVec.allOnes_xor
  | z | s | p | e => simp only [Format.mask, Format.used]; decide

/-- Clearing the low bits is shifting them out and back. -/
theorem and_not_low_eq (w : Word) (k : Nat) : w &&& ~~~ BitVec.ofNat 32 (2 ^ k - 1) = w >>> k <<< k := by
  ext j hj
  have bit : (BitVec.ofNat 32 (2 ^ k - 1))[j] = decide (j < k) := by
    rw [BitVec.getElem_eq_testBit_toNat, BitVec.toNat_ofNat, Nat.testBit_mod_two_pow, Nat.testBit_two_pow_sub_one]
    simp [hj]
  by_cases low : j < k
  · simp [bit, low]
  · simp [bit, low, hj, BitVec.getLsbD_eq_getElem, Nat.add_sub_cancel' (Nat.not_lt.mp low)]

theorem and_mask_toNat (f : Format) (w : Word) : (w &&& f.mask wT).toNat = w.toNat / 2 ^ f.used wT * 2 ^ f.used wT := by
  have fits : w.toNat / 2 ^ f.used wT * 2 ^ f.used wT < 2 ^ 32 := (Nat.div_mul_le_self _ _).trans_lt w.isLt
  rw [mask_eq, and_not_low_eq]
  simp only [BitVec.toNat_shiftLeft, BitVec.toNat_ushiftRight, Nat.shiftRight_eq_div_pow, Nat.shiftLeft_eq]
  exact Nat.mod_eq_of_lt fits

/-- Where `m` divides `2^16`, clearing the remainder by `m` of a word leaves `q` in its top byte and 0 below iff the fields
are `q`, 0 and a number below `m`. -/
theorem clear_low_eq_iff {op z imm m q : Nat} (hm : m ∣ 2 ^ 16) (hz : z < 2 ^ 8) (hi : imm < 2 ^ 16) :
    (op * 2 ^ 24 + z * 2 ^ 16 + imm) / m * m = q * 2 ^ 24 ↔ op = q ∧ z = 0 ∧ imm < m := by
  have pos : 0 < m := Nat.pos_of_dvd_of_pos hm (by decide)
  have split : (op * 2 ^ 24 + z * 2 ^ 16 + imm) / m * m = op * 2 ^ 24 + z * 2 ^ 16 + imm / m * m := by
    have upper : m ∣ op * 2 ^ 24 + z * 2 ^ 16 :=
      Nat.dvd_add (hm.trans ⟨op * 2 ^ 8, by omega⟩) (hm.mul_left z)
    rw [Nat.add_div_of_dvd_right upper, Nat.add_mul, Nat.div_mul_cancel upper]
  have below : imm < m ↔ imm / m * m = 0 := by simp [pos.ne', Nat.div_eq_zero_iff]
  have le := Nat.div_mul_le_self imm m
  rw [split, below]
  omega

/-- A word selects a row iff it has the row's code, `z = 0` and only operand bits its format uses (R62). -/
theorem selects_iff {r : OpcodeRow} (le : wT ≤ 16) :
    r.selects wT w = true ↔ fieldOp w = r.op ∧ fieldZ w = 0#8 ∧ (fieldImm w).toNat < 2 ^ r.format.used wT := by
  have dvd : 2 ^ r.format.used wT ∣ 2 ^ 16 :=
    Nat.pow_dvd_pow 2 (by cases r.format <;> simp [Format.used, le])
  have fields := congrArg BitVec.toNat (word_eq_fields w)
  rw [toNat_ofFields] at fields
  have matched : r.matchWord.toNat = r.op.toNat * 2 ^ 24 :=
    (BitVec.toNat_append r.op 0#24).trans (by simp [Nat.shiftLeft_eq])
  rw [OpcodeRow.selects, decide_eq_true_iff, ← BitVec.toNat_inj, and_mask_toNat, matched, ← fields,
    clear_low_eq_iff dvd (fieldZ w).isLt (fieldImm w).isLt, BitVec.toNat_inj, ← BitVec.toNat_inj (y := 0#8)]
  rfl

/-- A word selects a row iff it decodes to an operation of that row. -/
theorem selects_iff_decodes {r : OpcodeRow} (mem : r ∈ opcodeRows) (le : wT ≤ 16) :
    r.selects wT w = true ↔ ∃ i, decode wT w = .ok i ∧ i.row = r :=
  (selects_iff le).trans (exists_decode_iff mem).symm

/-- Settles O4: a word decodes to one operation, so it selects that operation's row and no other. -/
theorem decoderFollowsMaskAndMatch : Obligations.DecoderFollowsMaskAndMatch := by
  intro wT w _ le
  refine ⟨fun i decodes => ?_, fun r mem selected => ?_, fun r₁ mem₁ r₂ mem₂ selected₁ selected₂ => ?_⟩
  · exact ⟨i.row, row_mem_opcodeRows i, (selects_iff_decodes (row_mem_opcodeRows i) le).mpr ⟨i, decodes, rfl⟩, rfl⟩
  · obtain ⟨i, decodes, rfl⟩ := (selects_iff_decodes mem le).mp selected
    exact ⟨i, decodes, rfl⟩
  · obtain ⟨i₁, decodes₁, rfl⟩ := (selects_iff_decodes mem₁ le).mp selected₁
    obtain ⟨i₂, decodes₂, rfl⟩ := (selects_iff_decodes mem₂ le).mp selected₂
    rw [Except.ok.inj (decodes₁.symm.trans decodes₂)]

end Sys2Proof
end

section
/-! The command port (R63, R67, R68): which words are commands, what becomes of the others, and what is answered. -/

namespace Sys2Proof.Machine

variable {wT : Nat} {w : Word} {i : Instr} {s t : State}

/-! ## Legal and illegal words -/

/-- The codes of the host commands (R67) are rows of the map, and none is that of an event or a dispatch step (R61). -/
theorem row_of_hostCode : ∀ k ∈ hostCodes, ¬ (k / 16 = 8 ∨ k / 16 = 9) ∧
    ∃ r ∈ opcodeRows, r.op.toNat = k ∧ r.format = if k = 0x21 then .p else if k ∈ [0x02, 0x03] then .s else .z := by
  decide

/-- A word that R67 does not call illegal decodes to a host command. -/
theorem decodes_of_legal (legal : ¬ illegalCommand w) : ∃ i, decode wT w = .ok i ∧ i.cls = .hostCommand := by
  simp only [illegalCommand, not_or, not_and, not_not, ne_eq, not_le] at legal
  obtain ⟨z, code, unused, oneBit⟩ := legal
  obtain ⟨notTrace, r, mem, op, format⟩ := row_of_hostCode _ code
  have fits : (fieldImm w).toNat < 2 ^ r.format.used wT := by
    rw [format]
    split
    · exact (fieldImm w).isLt
    · split
      · exact oneBit ‹_›
      · rw [unused (by simp_all)]; exact Nat.one_pos
  obtain ⟨i, decodes, -⟩ := (exists_decode_iff mem).mpr ⟨(BitVec.eq_of_toNat_eq op).symm, z, fits⟩
  refine ⟨i, decodes, ?_⟩
  have notTraceWord : isTraceWord w = false := by simpa [isTraceWord] using notTrace
  simpa [notTraceWord] using isTraceWord_of_decode decodes

/-- R67 calls no word illegal that decodes to a host command. -/
theorem legal_of_decodes (decodes : decode wT w = .ok i) (host : i.cls = .hostCommand) : ¬ illegalCommand w := by
  obtain ⟨rfl, -⟩ := decode_ok_iff_encode.mp decodes
  cases i with
  | critExit token => cases token <;> simp [hostCodes, Instr.opcode, Instr.operandField, bitNat]
  | irqBind ch => cases ch <;> simp [hostCodes, Instr.opcode, Instr.operandField, bitNat, Channel.bit]
  | evTick | evRx | evEnv | isrTick | isrRx => cases host
  | _ => simp [hostCodes, Instr.opcode, Instr.operandField]

theorem decodeHost_none_iff : decodeHost wT w = none ↔ ∀ i, decode wT w = .ok i → i.cls ≠ .hostCommand := by
  simp [Option.eq_none_iff_forall_ne_some, decodeHost_some_iff]

/-- The command port takes a word for no command exactly where R67 calls it illegal. -/
theorem decodeHost_none_iff_illegal : decodeHost wT w = none ↔ illegalCommand w := by
  rw [decodeHost_none_iff]
  refine ⟨fun noCommand => by_contra fun legal => ?_, fun illegal i decodes host => ?_⟩
  · obtain ⟨i, decodes, host⟩ := decodes_of_legal (wT := wT) legal
    exact noCommand i decodes host
  · exact legal_of_decodes decodes host illegal

/-- A word that is no command is answered `ERR 0` on the command port (R67). -/
theorem performLine_port_of_none (ready : hostReady s = true) (none_ : decodeHost s.params.wT w = none) :
    performLine (.port w) s = .next { s with resp := some ⟨.err, 0#32⟩ } := by
  simp only [performLine, performPort, ready, none_, if_true]
  rfl

/-- Settles O5: the words R67 calls illegal are the ones that decode to no host command. -/
theorem illegalCommandAnsweredErr : Obligations.IllegalCommandAnsweredErr := by
  refine fun w s ready => ⟨fun illegal => ?_, fun legal => ?_⟩
  · exact performLine_port_of_none ready (decodeHost_none_iff_illegal.mpr illegal)
  · obtain ⟨i, decodes, host⟩ := decodes_of_legal legal
    exact ⟨i, decodes, host, performLine_port ready (decodeHost_some_iff.mpr ⟨decodes, host⟩)⟩

/-! ## Event and dispatch codes -/

theorem cls_of_isTraceWord (trace : isTraceWord w = true) (decodes : decode wT w = .ok i) : i.cls ≠ .hostCommand := by
  simpa [trace] using isTraceWord_of_decode decodes

/-- Settles O6: such a word decodes to no host command, so the port has no command to run and a trace needs no free port. -/
theorem eventCodesAreNoCommands : Obligations.EventCodesAreNoCommands := by
  intro w s ready trace
  refine ⟨performLine_port_of_none ready ?_, fun i decodes => ?_, fun e fails => ?_⟩
  · exact decodeHost_none_iff.mpr fun i => cls_of_isTraceWord trace
  · have notHost := cls_of_isTraceWord trace decodes
    exact ⟨notHost, performWord_eq_exec decodes fun host => absurd host notHost⟩
  · simp [performLine, performWord, trace, fails]

/-! ## Responses -/

/-- The reserved status is never produced (R63). -/
theorem code_ne_reserved (st : Status) : st.code ≠ 0b10#2 := by
  cases st <;> decide

/-- A host command that runs is answered `OK`, or `EMPTY` with data 0 (R63). -/
theorem Effect.answered (h : Effect s i t) (host : i.cls = .hostCommand) :
    ∃ r, t.resp = some r ∧ r.st ≠ .err ∧ (r.st = .empty → r.d = 0#32) := by
  cases h with
  | popEmpty | peekEmpty => exact ⟨_, rfl, by decide, fun _ => rfl⟩
  | tickEvent | rxEvent | rxOverrun | envEvent | tick | rxDrop | rxPush => cases host
  | _ => exact ⟨_, rfl, nofun, nofun⟩

/-- An event or dispatch step drives no response (R63). -/
theorem Effect.silent_of_trace (h : Effect s i t) (notHost : i.cls ≠ .hostCommand) : t.resp = none := by
  cases h with
  | tickEvent | rxEvent | rxOverrun | envEvent | tick | rxDrop | rxPush => rfl
  | _ => exact absurd rfl notHost

/-- Every host command runs where `TAIL` is an index of the ring (R57, R81). -/
theorem exists_effect_of_host (s : State) (index : s.tail.toNat < s.params.n) (host : i.cls = .hostCommand) :
    ∃ t, Effect s i t := by
  cases i with
  | rbPop =>
    by_cases empty : s.count = 0#8
    · exact ⟨_, .popEmpty empty⟩
    · exact ⟨_, .pop empty index⟩
  | rbPeek =>
    by_cases empty : s.count = 0#8
    · exact ⟨_, .peekEmpty empty⟩
    · exact ⟨_, .peek empty index⟩
  | clkSetPeriod p =>
    by_cases off : p = 0#16
    · subst off
      exact ⟨_, .setPeriodOff⟩
    · cases src : s.envSrcOk with
      | false => exact ⟨_, .setPeriodRefused p off src⟩
      | true => exact ⟨_, .setPeriod p off src⟩
  | irqBind ch => cases ch <;> exact ⟨_, .of_exec rfl⟩
  | evTick | evRx | evEnv | isrTick | isrRx => cases host
  | _ => exact ⟨_, .of_exec rfl⟩

/-- Settles O44: a line on the port is a legal command, whose effect is answered, or an illegal word answered `ERR`. -/
theorem exactlyCommandsAreAnswered : Obligations.ExactlyCommandsAreAnswered := by
  refine ⟨fun w s t performs => ?_, fun w s ready _ ring => ?_, fun i s t runs => (Effect.of_exec runs).silent_of_trace⟩
  · cases LineEffect.of_perform performs with
    | port ready decodes host effect =>
      obtain ⟨r, resp, notErr, empty⟩ := effect.answered host
      have word := decodeHost_some_iff.mpr ⟨decodes, host⟩
      exact ⟨r, resp, code_ne_reserved r.st, by simp [notErr, word], fun err => absurd err notErr, empty⟩
    | portIllegal ready none_ =>
      exact ⟨⟨.err, 0#32⟩, rfl, code_ne_reserved _, by simp [none_], fun _ => ⟨rfl, rfl⟩, nofun⟩
  · cases word : decodeHost s.params.wT w with
    | none => exact ⟨_, performLine_port_of_none ready word⟩
    | some i =>
      obtain ⟨-, -, index, -⟩ := ring
      obtain ⟨t, effect⟩ := exists_effect_of_host s index (decodeHost_some_iff.mp word).2
      exact ⟨t, (performLine_port ready word).trans effect.exec_eq⟩

end Sys2Proof.Machine
end

section
/-! Words the spec writes out (D-ENC-1, R71). -/

namespace Sys2Proof.Machine

/-- Settles O1. -/
theorem specWordsDecode : Obligations.SpecWordsDecode := by
  unfold Obligations.SpecWordsDecode
  decide

/-- Settles O8. -/
theorem pseudoInstructionsExpand : Obligations.PseudoInstructionsExpand :=
  fun _ => ⟨rfl, rfl, rfl, rfl, rfl⟩

end Sys2Proof.Machine
end

section
/-! The ring operations of Layer A, one by one (R82 to R87, R93): answers, index arithmetic and frames. -/

namespace Sys2Proof.Machine

variable {s : State}

/-- Settles O17: the two outcomes of `RB.POP`, with `TAIL` stepping around the ring and `COUNT` down by one. -/
theorem popAnswersOldestElement : Obligations.PopAnswersOldestElement := by
  refine ⟨rfl, fun s legal index => ⟨fun empty => (Effect.popEmpty empty).exec_eq, fun occupied => ?_⟩⟩
  obtain ⟨-, small, -⟩ := (Params.legal_iff _).mp legal
  obtain ⟨fewer, nonzero⟩ := count_pred occupied
  exact ⟨_, (Effect.pop occupied index).exec_eq, rfl, nextIndex_of_lt index small,
    show (s.count - 1#8).toNat + 1 = s.count.toNat by omega, elemAt_congr rfl rfl, rfl⟩

/-- Settles O18: an answer of `RB.POP` is the one `RB.PEEK` gives on the same buffer, empty or not. -/
theorem peekAnswersOldestElement : Obligations.PeekAnswersOldestElement := by
  refine ⟨rfl, fun s index => ⟨fun empty => (Effect.peekEmpty empty).exec_eq,
    fun occupied => (Effect.peek occupied index).exec_eq, fun t popped => ?_⟩⟩
  cases Effect.of_exec popped with
  | popEmpty empty => exact (Effect.peekEmpty empty).exec_eq
  | pop occupied index => exact (Effect.peek occupied index).exec_eq

/-- Settles O20: `RB.AVAIL` and `RB.ISEMPTY` compare the same `COUNT` with 0. -/
theorem ringPredicatesReadCount : Obligations.RingPredicatesReadCount := by
  refine ⟨rfl, rfl, rfl, fun s => ⟨?_, ?_, ?_⟩⟩
  · rw [Effect.isEmpty.exec_eq]
    by_cases empty : s.count.toNat = 0 <;> simp [bitNat, empty, ← BitVec.toNat_inj]
  · rw [Effect.isFull.exec_eq]
    by_cases full : s.count.toNat = s.params.n <;> simp [bitNat, full]
  · rw [Effect.avail.exec_eq]
    by_cases empty : s.count.toNat = 0 <;> simp [bitNat, empty, Nat.pos_of_ne_zero]

/-- Settles O21: a full buffer drops the datum, room takes it at `HEAD`, and the flag is cleared in both. -/
theorem rxHandlerPushesOrDropsNewest : Obligations.RxHandlerPushesOrDropsNewest := by
  refine ⟨rfl, fun s legal index upTo fits => ⟨fun enabled bound_ pending_ ctx => ?_, fun blocked => ?_⟩⟩
  · obtain ⟨-, small, -⟩ := (Params.legal_iff _).mp legal
    have found : dispatchable .rx s = true := dispatchable_iff.mpr ⟨enabled, bound_, pending_, ctx⟩
    split
    · exact (Effect.rxDrop found ‹_›).exec_eq
    · rename_i room
      refine ⟨_, (Effect.rxPush found room index).exec_eq, ?_, fun a other => ?_, nextIndex_of_lt index small,
        count_succ (Nat.lt_of_le_of_ne upTo room) small, rfl, rfl, rfl⟩
      · exact (elemAt_write_same s s.head.toNat s.rxData).trans (fitElem_of_lt fits)
      · exact elemAt_write_other s _ other
  · exact dispatch_of_not (not_dispatchable blocked)

end Sys2Proof.Machine
end

section
/-! The ring invariants (R81) and the queue (R88) under one operation of Layer A. -/

namespace Sys2Proof.Machine

variable {s t : State} {i : Instr}

/-! ## The ring invariants -/

/-- `HEAD` one further with `COUNT` one up (R82). -/
theorem ringAt_push {n head tail count : Nat} (ring : ringAt n head tail count) (room : count ≠ n) :
    ringAt n ((head + 1) % n) tail (count + 1) := by
  obtain ⟨upTo, -, tailIndex, place⟩ := ring
  exact ⟨by omega, Nat.mod_lt _ (by omega), tailIndex, by rw [place, Nat.mod_add_mod, Nat.add_assoc]⟩

/-- `TAIL` one further with `COUNT` one down (R83). -/
theorem ringAt_pop {n head tail count : Nat} (ring : ringAt n head tail count) (occupied : count ≠ 0) :
    ringAt n head ((tail + 1) % n) (count - 1) := by
  obtain ⟨upTo, headIndex, -, place⟩ := ring
  exact ⟨by omega, headIndex, Nat.mod_lt _ (by omega), by rw [place, Nat.mod_add_mod]; congr 1; omega⟩

/-- Only an operation that pushes or pops writes a ring register, and both keep the invariants. -/
theorem Effect.keeps_ringInv (h : Effect s i t) (legal : s.params.legal = true) (ring : s.ringInv) : t.ringInv := by
  obtain ⟨pos, small, -⟩ := (Params.legal_iff _).mp legal
  cases h with
  | pop occupied =>
    obtain ⟨fewer, nonzero⟩ := count_pred occupied
    have popped := ringAt_pop ring nonzero
    rwa [← fewer, ← nextIndex_toNat s.tail pos small] at popped
  | rxPush _ room =>
    have more := count_succ (Nat.lt_of_le_of_ne ring.1 room) small
    have pushed := ringAt_push ring room
    rwa [← more, ← nextIndex_toNat s.head pos small] at pushed
  | _ => exact ring

/-- The empty ring of reset (R161). -/
theorem resetWith_ringInv {p : Params} (legal : p.legal = true) : (State.resetWith p).ringInv := by
  obtain ⟨pos, -⟩ := (Params.legal_iff p).mp legal
  exact ⟨Nat.zero_le _, pos, pos, (Nat.zero_mod _).symm⟩

/-- `COUNT` places around a ring of `n` lead back to where they started only for 0 and `n` (R81). -/
theorem add_mod_eq_self_iff {n tail count : Nat} (upTo : count ≤ n) (index : tail < n) :
    (tail + count) % n = tail ↔ count = 0 ∨ count = n := by
  rcases Nat.lt_or_ge (tail + count) n with before | wrapped
  · rw [Nat.mod_eq_of_lt before]; omega
  · rw [Nat.mod_eq_sub_mod wrapped, Nat.mod_eq_of_lt (by omega)]; omega

/-- Settles O22: the invariants are kept by every effect, and place `HEAD` `COUNT` places after `TAIL`. -/
theorem operationsKeepRingInvariants : Obligations.OperationsKeepRingInvariants := by
  refine ⟨fun i s t legal ring h => (Effect.of_exec h).keeps_ringInv legal ring, fun s legal ring => ?_⟩
  obtain ⟨upTo, -, tailIndex, place⟩ := ring
  rw [← BitVec.toNat_inj, place]
  exact add_mod_eq_self_iff upTo tailIndex

/-! ## The queue -/

/-- What one operation does to the queue: it appends what is pushed, removes and answers what is popped, or leaves it. -/
inductive QueueEffect (s : State) : Instr → State → Prop where
  | push {t : State} (room : s.count.toNat ≠ s.params.n) (appended : t.queue = s.queue ++ [fitElem s.params.wT s.rxData]) :
      QueueEffect s .isrRx t
  | pop {t : State} {v : Elem} (occupied : s.count ≠ 0#8) (removed : s.queue = v :: t.queue)
      (answer : t.resp = some ⟨.ok, v.setWidth 32⟩) : QueueEffect s .rbPop t
  | keep {i : Instr} {t : State} (kept : t.queue = s.queue) (full : i = .isrRx → s.count.toNat = s.params.n)
      (empty : i = .rbPop → s.count = 0#8 ∧ t.resp = some ⟨.empty, 0#32⟩) : QueueEffect s i t

theorem Effect.queue (h : Effect s i t) (legal : s.params.legal = true) (ring : s.ringInv) : QueueEffect s i t := by
  cases h with
  | pop occupied => exact .pop occupied (queue_pop legal ring occupied rfl rfl rfl rfl) rfl
  | rxPush _ room => exact .push room (queue_push legal ring room _ rfl rfl rfl rfl)
  | popEmpty empty => exact .keep (queue_congr rfl rfl rfl rfl) nofun fun _ => ⟨empty, rfl⟩
  | rxDrop _ full => exact .keep (queue_congr rfl rfl rfl rfl) (fun _ => full) nofun
  | _ => exact .keep (queue_congr rfl rfl rfl rfl) nofun nofun

/-- Settles O23: the three effects on the queue exclude each other. -/
theorem operationsRefineQueue : Obligations.OperationsRefineQueue := by
  intro i s t legal ring h
  cases (Effect.of_exec h).queue legal ring with
  | push room appended => exact ⟨fun _ _ => appended, nofun, fun full _ => absurd (full rfl) room⟩
  | pop occupied removed answer => exact ⟨nofun, fun _ _ => ⟨_, removed, answer⟩, fun _ empty => absurd (empty rfl) occupied⟩
  | keep kept full empty =>
    exact ⟨fun rx room => absurd (full rx) room.ne, fun pop occupied => absurd (empty pop).1 occupied, fun _ _ => kept⟩

/-- `COUNT` is the length of the queue. -/
theorem length_queue (s : State) : s.queue.length = s.count.toNat := by
  simp [State.queue]

end Sys2Proof.Machine
end

section
/-! Pushes and pops over whole runs of Layer A (R88, R92): what was in the queue and what was pushed is, in order, what was
popped and what is in the queue. -/

namespace Sys2Proof.Machine

variable {s t : State} {i : Instr} {l : Line} {ls : List Line} {w : Word}

/-- What the queue answers to pops, in order: its elements zero-extended (R64). -/
def State.queueData (s : State) : List Word := s.queue.map (fun v => v.setWidth 32)

/-! ## One line -/

/-- Words that decode are equal iff they decode to the same operation. -/
theorem eq_encode_iff {wT : Nat} {j : Instr} (decodes : decode wT w = .ok i) (wf : j.wellFormed wT = true) :
    w = encode j ↔ i = j := by
  obtain ⟨word, -⟩ := decode_ok_iff_encode.mp decodes
  constructor
  · intro same
    have decodes' : decode wT w = .ok j := decode_ok_iff_encode.mpr ⟨same.symm, wf⟩
    exact Except.ok.inj (decodes.symm.trans decodes')
  · rintro rfl
    exact word.symm

theorem pushedElems_eq_nil (performs : performLine l s = .next t)
    (full : l = .word 0x91000000#32 → s.count.toNat = s.params.n) : pushedElems [l] s = [] := by
  simp only [pushedElems, performs, List.append_nil, ite_eq_right_iff]
  exact fun ⟨push, room⟩ => absurd (full push) room

theorem poppedData_eq_nil (performs : performLine l s = .next t)
    (empty : l = .word 0x10000000#32 ∨ l = .port 0x10000000#32 → t.resp = some ⟨.empty, 0#32⟩) :
    poppedData [l] s = [] := by
  simp only [poppedData, performs, List.append_nil, ite_eq_right_iff]
  intro pop
  simp only [empty pop]

/-- What a line leaves balanced: the elements it pushes come in at the end of the queue, the ones it pops go out at the
front (R88). -/
def Balances (l : Line) (s t : State) : Prop :=
  s.queueData ++ pushedElems [l] s = poppedData [l] s ++ t.queueData

theorem balances_of_neither (performs : performLine l s = .next t) (kept : t.queue = s.queue)
    (full : l = .word 0x91000000#32 → s.count.toNat = s.params.n)
    (empty : l = .word 0x10000000#32 ∨ l = .port 0x10000000#32 → t.resp = some ⟨.empty, 0#32⟩) : Balances l s t := by
  simp [Balances, pushedElems_eq_nil performs full, poppedData_eq_nil performs empty, State.queueData, kept]

/-- A line that runs an operation, on either of the two paths of R61. -/
theorem QueueEffect.balances (h : QueueEffect s i t) (decodes : decode s.params.wT w = .ok i)
    (line : l = .word w ∨ l = .port w ∧ i.cls = .hostCommand) (performs : performLine l s = .next t) :
    Balances l s t := by
  have push : w = 0x91000000#32 ↔ i = .isrRx := eq_encode_iff (j := .isrRx) decodes rfl
  have pop : w = 0x10000000#32 ↔ i = .rbPop := eq_encode_iff (j := .rbPop) decodes rfl
  cases h with
  | push room appended =>
    obtain rfl := push.mpr rfl
    obtain rfl | ⟨-, host⟩ := line
    · simp [Balances, State.queueData, pushedElems, poppedData, performs, room, appended]
    · cases host
  | pop occupied removed answer =>
    obtain rfl := pop.mpr rfl
    obtain rfl | ⟨rfl, -⟩ := line <;>
      simp [Balances, State.queueData, pushedElems, poppedData, performs, answer, removed]
  | keep kept full empty =>
    refine balances_of_neither performs kept (fun word => full (push.mp ?_)) (fun word => (empty (pop.mp ?_)).2)
    · obtain rfl | ⟨rfl, -⟩ := line <;> cases word
      rfl
    · obtain rfl | ⟨rfl, -⟩ := line <;> obtain word | word := word <;> cases word <;> rfl

theorem LineEffect.balances (h : LineEffect s l t) (layerA : l.layerA = true) (performs : performLine l s = .next t)
    (legal : s.params.legal = true) (ring : s.ringInv) : Balances l s t ∧ t.ringInv := by
  have noPop (none_ : decodeHost s.params.wT 0x10000000#32 = none) : False := by
    have command : decodeHost s.params.wT 0x10000000#32 = some .rbPop := rfl
    cases command.symm.trans none_
  cases h with
  | command _ decodes _ effect | event decodes _ effect =>
    exact ⟨(effect.queue legal ring).balances decodes (.inl rfl) performs, effect.keeps_ringInv legal ring⟩
  | port _ decodes host effect =>
    exact ⟨(effect.queue legal ring).balances decodes (.inr ⟨rfl, host⟩) performs, effect.keeps_ringInv legal ring⟩
  | illegal _ notTrace none_ =>
    refine ⟨balances_of_neither performs (queue_congr rfl rfl rfl rfl) (fun push => ?_) (fun pop => ?_), ring⟩
    · cases push; cases notTrace
    · obtain pop | pop := pop <;> cases pop
      exact (noPop none_).elim
  | portIllegal _ none_ =>
    refine ⟨balances_of_neither performs (queue_congr rfl rfl rfl rfl) nofun (fun pop => ?_), ring⟩
    obtain pop | pop := pop <;> cases pop
    exact (noPop none_).elim
  | reset | start | startIllegal | enter | micro => cases layerA

/-! ## A run -/

theorem pushedElems_cons (performs : performLine l s = .next t) :
    pushedElems (l :: ls) s = pushedElems [l] s ++ pushedElems ls t := by
  simp [pushedElems, performs]

theorem poppedData_cons (performs : performLine l s = .next t) :
    poppedData (l :: ls) s = poppedData [l] s ++ poppedData ls t := by
  simp [poppedData, performs]

/-- Over a run of Layer A the queue is first in, first out (R88). -/
theorem run_balances (legal : s.params.legal = true) (ring : s.ringInv) (layerA : ∀ l ∈ ls, l.layerA = true)
    (run : runLines ls s = .next t) :
    s.queueData ++ pushedElems ls s = poppedData ls s ++ t.queueData ∧ t.params = s.params ∧ t.ringInv := by
  induction ls generalizing s with
  | nil => cases run; exact ⟨List.append_nil _, rfl, ring⟩
  | cons l ls ih =>
    obtain ⟨u, performs, rest⟩ := runLines_cons_next_iff.mp run
    obtain ⟨params, -⟩ := setting_eq_iff.mp (performLine_keeps_setting performs)
    obtain ⟨one, ring'⟩ := (LineEffect.of_perform performs).balances (layerA l List.mem_cons_self) performs legal ring
    obtain ⟨more, params', ring''⟩ := ih (params ▸ legal) ring' (fun k mem => layerA k (List.mem_cons_of_mem l mem)) rest
    refine ⟨?_, params'.trans params, ring''⟩
    calc s.queueData ++ pushedElems (l :: ls) s
        = (s.queueData ++ pushedElems [l] s) ++ pushedElems ls u := by rw [pushedElems_cons performs, List.append_assoc]
      _ = poppedData [l] s ++ (u.queueData ++ pushedElems ls u) := by rw [one, List.append_assoc]
      _ = poppedData (l :: ls) s ++ t.queueData := by rw [more, ← List.append_assoc, ← poppedData_cons performs]

/-- Settles O24: from reset the queue is empty, so what was pushed is what was popped and what is left. -/
theorem firstInFirstOut : Obligations.FirstInFirstOut := by
  intro p ls s legal layerA run
  obtain ⟨order, -⟩ := run_balances (s := State.resetWith p) legal (resetWith_ringInv legal) layerA run
  have order : pushedElems ls (State.resetWith p) = poppedData ls (State.resetWith p) ++ s.queueData := order
  refine ⟨order, ?_⟩
  rw [order, List.length_append, State.queueData, List.length_map, length_queue, Nat.add_sub_cancel_left]

/-- Lines without a pop answer none. -/
theorem poppedData_of_no_pop (noPop : ∀ l ∈ ls, l ≠ .word 0x10000000#32 ∧ l ≠ .port 0x10000000#32)
    (run : runLines ls s = .next t) : poppedData ls s = [] := by
  induction ls generalizing s with
  | nil => rfl
  | cons l ls ih =>
    obtain ⟨u, performs, rest⟩ := runLines_cons_next_iff.mp run
    obtain ⟨notWord, notPort⟩ := noPop l List.mem_cons_self
    rw [poppedData_cons performs, ih (fun k mem => noPop k (List.mem_cons_of_mem l mem)) rest,
      poppedData_eq_nil performs fun pop => absurd pop (not_or.mpr ⟨notWord, notPort⟩), List.append_nil]

/-- The head of the queue is the element at `TAIL`, which `RB.PEEK` answers (R84). -/
theorem queueData_head? (legal : s.params.legal = true) (ring : s.ringInv) :
    s.queueData.head? = if s.count = 0#8 then none else some ((elemAt s s.tail.toNat).setWidth 32) := by
  split
  · simp [State.queueData, State.queue, ‹s.count = 0#8›]
  · rename_i occupied
    rw [State.queueData, queue_pop (t := { s with
      tail := nextIndex s.params.n s.tail, count := s.count - 1#8 }) legal ring occupied rfl rfl rfl rfl]
    rfl

/-- What was at the head of the queue stays there until a pop (R92). -/
theorem head?_of_no_pop {d : Word} (legal : s.params.legal = true) (ring : s.ringInv)
    (lines : ∀ l ∈ ls, l.layerA = true ∧ l ≠ .word 0x10000000#32 ∧ l ≠ .port 0x10000000#32)
    (run : runLines ls s = .next t) (head : s.queueData.head? = some d) : t.queueData.head? = some d := by
  obtain ⟨order, -⟩ := run_balances legal ring (fun l mem => (lines l mem).1) run
  rw [poppedData_of_no_pop (fun l mem => (lines l mem).2) run, List.nil_append] at order
  rw [← order, List.head?_append, head, Option.some_or]

/-- An element `RB.PEEK` answers is the head of the queue (R84). -/
theorem Effect.peek_head {d : Word} (h : Effect s .rbPeek t) (answer : t.resp = some ⟨.ok, d⟩)
    (legal : s.params.legal = true) (ring : s.ringInv) : t.queueData.head? = some d := by
  cases h with
  | peekEmpty => cases answer
  | peek occupied =>
    cases answer
    exact (queueData_head? legal ring).trans (if_neg occupied)

/-- A pop and a peek answer the head of the queue (R83, R84). -/
theorem effects_of_head {d : Word} (legal : s.params.legal = true) (ring : s.ringInv) (head : s.queueData.head? = some d) :
    (∃ t, Effect s .rbPop t ∧ t.resp = some ⟨.ok, d⟩) ∧ Effect s .rbPeek { s with resp := some ⟨.ok, d⟩ } := by
  rw [queueData_head? legal ring] at head
  obtain ⟨-, -, index, -⟩ := ring
  split at head <;> cases head
  rename_i occupied
  exact ⟨⟨_, .pop occupied index, rfl⟩, .peek occupied index⟩

/-- Settles O25: what `RB.PEEK` answered is still the head of the queue when the next pop or peek reads it. -/
theorem peekThenPop : Obligations.PeekThenPop := by
  intro s u v ls d legal ring peeked answer lines run
  have effect := Effect.of_exec peeked
  have legal' : u.params.legal = true := effect.keeps_params ▸ legal
  have ring' := effect.keeps_ringInv legal ring
  have head := head?_of_no_pop legal' ring' lines run (effect.peek_head answer legal ring)
  obtain ⟨-, params, ring''⟩ := run_balances legal' ring' (fun l mem => (lines l mem).1) run
  obtain ⟨⟨w, pop, popped⟩, peek⟩ := effects_of_head (params ▸ legal') ring'' head
  exact ⟨⟨w, pop.exec_eq, popped⟩, peek.exec_eq⟩

end Sys2Proof.Machine
end

section
/-! The ring registers at both layers (R81, R91): a half-done `RB.POP` or `ISR.RX` is seen by nothing else, for the bracket
holds `IE = 0` through the one and the main context waits through the other. -/

namespace Sys2Proof.Machine

variable {s t : State} {u : Nat} {cmd : Instr} {ch : Channel} {l : Line} {i : Instr}

/-! ## Where the ring is at rest -/

/-- The registers the ring invariants speak of, and the parameters. -/
def State.ring (s : State) : Params × Byte × Byte × Byte := (s.params, s.head, s.tail, s.count)

theorem ring_eq_iff : t.ring = s.ring ↔
    t.params = s.params ∧ t.head = s.head ∧ t.tail = s.tail ∧ t.count = s.count := by
  simp [State.ring]

theorem ringInv_of_ring_eq (same : t.ring = s.ring) (inv : s.ringInv) : t.ringInv := by
  obtain ⟨params, head, tail, count⟩ := ring_eq_iff.mp same
  simpa only [State.ringInv, params, head, tail, count] using inv

/-- The ring is coherent by its registers and the Layer B state alone. -/
theorem ringCoherent_of_ring_eq (same : t.ring = s.ring) (micro : t.micro = s.micro) (coherent : s.ringCoherent) :
    t.ringCoherent := by
  obtain ⟨params, head, tail, count⟩ := ring_eq_iff.mp same
  simpa only [State.ringCoherent, ringInRxHandler, ringInPop, ringInPeek, State.ringInv, micro, params, head, tail,
    count] using coherent

/-- The ring seen through the main context. -/
def RingInMain (s : State) : MainSeq → Prop
  | .idle => s.ringInv
  | .busy cmd u =>
    if cmd = .rbPop then ringInPop s u else if cmd = .rbPeek then ringInPeek s u else s.ringInv

theorem ringCoherent_of_main (ctx : s.micro.ctx = .main) : s.ringCoherent ↔ RingInMain s s.micro.main := by
  cases main : s.micro.main <;> simp only [State.ringCoherent, RingInMain, ctx, main]

theorem ringCoherent_of_ready (ready : hostReady s = true) : s.ringCoherent ↔ s.ringInv := by
  obtain ⟨ctx, main⟩ := hostReady_iff.mp ready
  rw [ringCoherent_of_main ctx, main]
  rfl

/-- A command sees the ring at rest before its bracket and after it. -/
theorem ringInMain_of_not_inBracket {d : DataPath} (low : 1 ≤ u) (upTo : u ≤ lastMicro d cmd)
    (outside : inBracket d cmd u = false) : RingInMain s (.busy cmd u) ↔ s.ringInv := by
  have ends (brackets : bracketed cmd = true) : u = 1 ∨ u = lastMicro d cmd := by
    have after : 2 ≤ u → lastMicro d cmd ≤ u := by simpa [inBracket, brackets] using outside
    omega
  by_cases pop : cmd = .rbPop
  · subst pop
    obtain rfl | rfl := ends rfl <;> simp [RingInMain, ringInPop, lastMicro]
  · by_cases peek : cmd = .rbPeek
    · subst peek
      obtain rfl | rfl := ends rfl <;> simp [RingInMain, ringInPeek, lastMicro]
    · simp [RingInMain, pop, peek]

/-- Where a handler can start the ring is at rest (R48, R53). -/
theorem ringCoherent_of_enabled (gate : s.gateInv) (ctx : s.micro.ctx = .main) (enabled : s.ie = true) :
    s.ringCoherent ↔ s.ringInv := by
  obtain ⟨mainGate, -⟩ := gateInv_iff.mp gate
  rw [ringCoherent_of_main ctx]
  cases main : s.micro.main with
  | idle => rfl
  | busy cmd u =>
    rw [main] at mainGate
    obtain ⟨low, upTo, masked⟩ := mainGate
    refine ringInMain_of_not_inBracket low upTo (Bool.eq_false_iff.mpr fun inside => ?_)
    cases enabled.symm.trans (masked inside)

/-! ## The commands -/

/-- Before its last micro-step a command goes on, without a response. -/
theorem MainEffect.goes_on (h : MainEffect s cmd u t) (before : u < lastMicro s.params.wDp cmd) :
    ∃ v, u < v ∧ t.micro.main = .busy cmd v ∧ t.resp = none := by
  cases h with
  | answer isLast => omega
  | ringEmpty ring =>
    refine ⟨lastMicro s.params.wDp cmd - 1, ?_, rfl, rfl⟩
    obtain rfl | rfl := ring <;> simp [lastMicro]
  | _ => exact ⟨_, by omega, rfl, rfl⟩

/-- No command but `RB.POP` writes a ring register. -/
theorem MainEffect.keeps_ring (h : MainEffect s cmd u t) (notPop : cmd ≠ .rbPop) : t.ring = s.ring := by
  cases h with
  | popTail | popCount => exact absurd rfl notPop
  | _ => rfl

/-- `RB.POP` moves `TAIL` at line 6 and `COUNT` at line 7, from what it has read (R91). -/
theorem MainEffect.keeps_ringInPop (h : MainEffect s .rbPop u t) (legal : s.params.legal = true)
    (pop : ringInPop s u) : RingInMain t t.micro.main := by
  obtain ⟨pos, small, -⟩ := (Params.legal_iff _).mp legal
  obtain ⟨counted, occupied, indexed, ring⟩ := pop
  cases h with
  | mask => exact ⟨by omega, by omega, by omega, ring⟩
  | ringCount => exact ⟨fun _ => rfl, by omega, by omega, ring⟩
  | ringEmpty => exact ⟨by simp [lastMicro], by simp [lastMicro], by simp [lastMicro], ring⟩
  | ringOccupied _ ne => exact ⟨fun _ => counted (by omega), fun _ => counted (by omega) ▸ ne, by omega, ring⟩
  | ringTail => exact ⟨fun _ => counted (by omega), fun _ => occupied (by omega), fun _ => rfl, ring⟩
  | ringRead =>
    exact ⟨fun _ => counted (by omega), fun _ => occupied (by omega), fun _ => indexed (by omega), ring⟩
  | popTail =>
    have occupied := occupied (by omega)
    obtain ⟨-, headIndex, tailIndex, place⟩ := ringAt_pop ring (count_pred occupied).2
    rw [← nextIndex_toNat s.tail pos small, ← indexed (by omega)] at tailIndex place
    obtain ⟨upTo, -⟩ := ring
    exact ⟨fun _ => counted (by omega), fun _ => occupied, by omega, upTo, headIndex, tailIndex, place⟩
  | popCount =>
    obtain ⟨upTo, headIndex, tailIndex, place⟩ := ring
    obtain ⟨fewer, -⟩ := count_pred (occupied (by omega))
    rw [← fewer, ← counted (by omega)] at place
    have upTo' : (s.micro.c - 1#8).toNat ≤ s.params.n := by rw [counted (by omega), fewer]; omega
    exact ⟨by omega, by omega, by omega, upTo', headIndex, tailIndex, place⟩
  | unmask _ beforeLast =>
    obtain rfl : u = 8 := Nat.succ.inj beforeLast
    exact ⟨by omega, by omega, by omega, ring⟩
  | answer isLast =>
    obtain rfl : u = 9 := isLast
    exact ring
  | predicate reads => simp at reads
  | readLane reads => cases reads
  | disable writes | sample writes | countLane writes | periodLane writes | enable writes => cases writes

/-- `RB.PEEK` reads `COUNT` and `TAIL` and writes no ring register (R91). -/
theorem MainEffect.keeps_ringInPeek (h : MainEffect s .rbPeek u t) (peek : ringInPeek s u) :
    RingInMain t t.micro.main := by
  obtain ⟨counted, occupied, indexed, ring⟩ := peek
  cases h with
  | mask => exact ⟨by omega, by omega, by omega, ring⟩
  | unmask _ beforeLast =>
    obtain rfl : u = 6 := Nat.succ.inj beforeLast
    exact ⟨by omega, by omega, by omega, ring⟩
  | ringCount => exact ⟨fun _ => rfl, by omega, by omega, ring⟩
  | ringEmpty => exact ⟨by simp [lastMicro], by simp [lastMicro], by simp [lastMicro], ring⟩
  | ringOccupied _ ne => exact ⟨fun _ => counted (by omega), fun _ => counted (by omega) ▸ ne, by omega, ring⟩
  | ringTail => exact ⟨fun _ => counted (by omega), fun _ => occupied (by omega), fun _ => rfl, ring⟩
  | ringRead => exact ⟨by omega, by omega, by omega, ring⟩
  | answer => exact ring
  | predicate reads => simp at reads
  | readLane reads => cases reads
  | disable writes | sample writes | countLane writes | periodLane writes | enable writes => cases writes

/-- A command other than the two that hold ring values in temporaries sees the ring at rest. -/
theorem ringInMain_of_other (main : s.micro.main = .idle ∨ ∃ u, s.micro.main = .busy cmd u) (notPop : cmd ≠ .rbPop)
    (notPeek : cmd ≠ .rbPeek) : RingInMain s s.micro.main ↔ s.ringInv := by
  obtain main | ⟨u, main⟩ := main
  · rw [main]; rfl
  · simp [main, RingInMain, notPop, notPeek]

theorem MainEffect.idle_or_busy (h : MainEffect s cmd u t) :
    t.micro.main = .idle ∨ ∃ v, t.micro.main = .busy cmd v := by
  obtain before | ⟨-, rfl⟩ := h.last_or_before
  · obtain ⟨v, -, main, -⟩ := h.goes_on before
    exact .inr ⟨v, main⟩
  · exact .inl rfl

theorem MainEffect.keeps_ringCoherent (h : MainEffect s cmd u t) (legal : s.params.legal = true)
    (ring : RingInMain s (.busy cmd u)) : RingInMain t t.micro.main := by
  by_cases pop : cmd = .rbPop
  · subst pop
    exact h.keeps_ringInPop legal ring
  · by_cases peek : cmd = .rbPeek
    · subst peek
      exact h.keeps_ringInPeek ring
    · rw [ringInMain_of_other h.idle_or_busy pop peek]
      simp only [RingInMain, pop, peek, if_false] at ring
      exact ringInv_of_ring_eq (h.keeps_ring pop) ring

/-! ## The handlers -/

/-- `ISR.RX` moves `HEAD` at line 5 and `COUNT` at line 6, from what it has read (R91). -/
theorem IsrEffect.keeps_ringInRx (h : IsrEffect s .rx u t) (legal : s.params.legal = true) (rx : ringInRxHandler s u) :
    (t.micro.ctx = .main ∧ t.ringInv) ∨ ∃ v, t.micro.ctx = .isr .rx v ∧ ringInRxHandler t v := by
  obtain ⟨pos, small, -⟩ := (Params.legal_iff _).mp legal
  obtain ⟨counted, room, headed, ring⟩ := rx
  cases h with
  | rxCount => exact .inr ⟨_, rfl, fun _ => rfl, by omega, by omega, ring⟩
  | rxFull => exact .inr ⟨_, rfl, by omega, by omega, by omega, ring⟩
  | rxRoom found => exact .inr ⟨_, rfl, fun _ => counted (by omega), fun _ => counted (by omega) ▸ found, by omega, ring⟩
  | rxHead => exact .inr ⟨_, rfl, fun _ => counted (by omega), fun _ => room (by omega), fun _ => rfl, ring⟩
  | rxStore =>
    exact .inr ⟨_, rfl, fun _ => counted (by omega), fun _ => room (by omega), fun _ => headed (by omega), ring⟩
  | rxAdvance =>
    have room := room (by omega)
    obtain ⟨-, headIndex, -, place⟩ := ringAt_push ring room
    rw [← nextIndex_toNat s.head pos small, ← headed (by omega)] at headIndex place
    obtain ⟨upTo, -, tailIndex, -⟩ := ring
    exact .inr ⟨_, rfl, fun _ => counted (by omega), fun _ => room, by omega,
      Nat.lt_of_le_of_ne upTo room, headIndex, tailIndex, place⟩
  | rxGrow =>
    obtain ⟨below, headIndex, tailIndex, place⟩ := ring
    have more := count_succ below small
    rw [Nat.add_assoc, ← more, ← counted (by omega)] at place
    refine .inr ⟨_, rfl, by omega, by omega, by omega, ?_, headIndex, tailIndex, place⟩
    rw [counted (by omega), more]
    exact below
  | rxClear => exact .inr ⟨_, rfl, by omega, by omega, by omega, ring⟩
  | leave isLast =>
    obtain rfl : u = 8 := isLast
    exact .inl ⟨rfl, ring⟩

/-- `ISR.TICK` writes no ring register. -/
theorem IsrEffect.tick_keeps_ring (h : IsrEffect s .tick u t) :
    t.ring = s.ring ∧ (t.micro.ctx = .main ∨ ∃ v, t.micro.ctx = .isr .tick v) := by
  cases h with
  | leave => exact ⟨rfl, .inl rfl⟩
  | _ => exact ⟨rfl, .inr ⟨_, rfl⟩⟩

/-- A handler runs with `IE = 1`, so the main context it returns to sees the ring at rest. -/
theorem IsrEffect.keeps_ringCoherent (h : IsrEffect s ch u t) (ctx : s.micro.ctx = .isr ch u)
    (legal : s.params.legal = true) (enabled : t.ie = true) (gate : t.gateInv) (coherent : s.ringCoherent) :
    t.ringCoherent := by
  simp only [State.ringCoherent, ctx] at coherent
  cases ch with
  | tick =>
    obtain ⟨same, returns | ⟨v, stays⟩⟩ := h.tick_keeps_ring
    · exact (ringCoherent_of_enabled gate returns enabled).mpr (ringInv_of_ring_eq same coherent)
    · simp only [State.ringCoherent, stays]
      exact ringInv_of_ring_eq same coherent
  | rx =>
    obtain ⟨returns, ring⟩ | ⟨v, stays, ring⟩ := h.keeps_ringInRx legal coherent
    · exact (ringCoherent_of_enabled gate returns enabled).mpr ring
    · simpa only [State.ringCoherent, stays] using ring

/-! ## Layer A, a line, a step -/

/-- An event writes no ring register, and a whole `ISR.RX` stands only where the ring is at rest. -/
theorem Effect.keeps_ringCoherent (h : Effect s i t) (notHost : i.cls ≠ .hostCommand) (legal : s.params.legal = true)
    (gate : s.gateInv) (gate' : t.gateInv) (coherent : s.ringCoherent) : t.ringCoherent := by
  have effect := h
  cases h with
  | pop => exact absurd rfl notHost
  | rxPush found =>
    obtain ⟨enabled, -, -, ctx⟩ := dispatchable_iff.mp found
    have ring := (ringCoherent_of_enabled gate ctx enabled).mp coherent
    exact (ringCoherent_of_enabled gate' ctx enabled).mpr (effect.keeps_ringInv legal ring)
  | _ => exact ringCoherent_of_ring_eq rfl rfl coherent

/-- A whole command runs where the ring is at rest. -/
theorem Effect.keeps_ringCoherent_of_ready (h : Effect s i t) (ready : hostReady s = true)
    (legal : s.params.legal = true) (coherent : s.ringCoherent) : t.ringCoherent :=
  (ringCoherent_of_ready (h.keeps_ready ready)).mpr (h.keeps_ringInv legal ((ringCoherent_of_ready ready).mp coherent))

theorem microStep_keeps_ringCoherent (legal : s.params.legal = true) (gate : s.gateInv) (coherent : s.ringCoherent)
    (h : microStep s = .next t) : t.ringCoherent := by
  have gate' := microStep_keeps_gate gate h
  obtain ⟨ch, u, ctx, effect⟩ | ⟨ctx, cmd, u, main, effect⟩ := microStep_next h
  · obtain ⟨-, isrGate⟩ := gateInv_iff.mp gate
    rw [ctx] at isrGate
    obtain ⟨-, -, enabled⟩ := isrGate
    obtain ⟨-, -, ie, -⟩ := mainSide_eq_iff.mp effect.keeps_mainSide.1
    exact effect.keeps_ringCoherent ctx legal (ie.trans enabled) gate' coherent
  · rw [ringCoherent_of_main ctx, main] at coherent
    rw [ringCoherent_of_main (effect.keeps_ctx.trans ctx)]
    exact effect.keeps_ringCoherent legal coherent

theorem LineEffect.keeps_ringCoherent (h : LineEffect s l t) (legal : s.params.legal = true) (gate : s.gateInv)
    (coherent : s.ringCoherent) : t.ringCoherent := by
  have gate' := h.keeps_gate gate
  cases h with
  | command ready _ _ effect | port ready _ _ effect => exact effect.keeps_ringCoherent_of_ready ready legal coherent
  | event _ notHost effect => exact effect.keeps_ringCoherent notHost legal gate gate' coherent
  | illegal | portIllegal | startIllegal => exact ringCoherent_of_ring_eq rfl rfl coherent
  | reset => exact (ringCoherent_of_ready rfl).mpr (ringInv_of_ring_eq rfl (resetWith_ringInv legal))
  | @start w i ready _ host =>
    obtain ⟨ctx, -⟩ := hostReady_iff.mp ready
    refine (ringCoherent_of_main (s := { silent s with micro.main := .busy i 1 }) ctx).mpr ?_
    have first := one_lt_lastMicro s.params.wDp host
    refine (ringInMain_of_not_inBracket (d := s.params.wDp) le_rfl first.le (by simp [inBracket])).mpr ?_
    exact (ringCoherent_of_ready ready).mp coherent
  | @enter ch found =>
    obtain ⟨enabled, -, -, ctx⟩ := dispatchable_iff.mp found
    have ring := (ringCoherent_of_enabled gate ctx enabled).mp coherent
    cases ch with
    | tick => exact ring
    | rx => exact ⟨by omega, by omega, by omega, ring⟩
  | micro next => exact microStep_keeps_ringCoherent legal gate coherent next

/-- Settles O50: the line performed keeps the ring coherent, and the pointer is no part of it. -/
theorem stepKeepsRingCoherent : Obligations.StepKeepsRingCoherent := by
  intro s t legal gate coherent h
  obtain ⟨l, v, -, performed, rfl⟩ := step_next_iff.mp h
  exact ringCoherent_of_ring_eq rfl rfl ((LineEffect.of_perform performed).keeps_ringCoherent legal gate coherent)

end Sys2Proof.Machine
end

section
/-! A host command's micro-sequence to its end (R91, R112): the relation to Layer A is carried along it, and where a
micro-step could stop, at the read of `BUF`, the command at Layer A had an element to read. -/

namespace Sys2Proof.Machine

variable {s t a b b' : State} {u : Nat} {cmd : Instr} {w : Word} {ws : List Word} {rs : List Response}
  {hs : List Channel}

/-! ## Every micro-step goes on -/

theorem microStep_of_main (ctx : b.micro.ctx = .main) (main : b.micro.main = .busy cmd u) :
    microStep b = microMain cmd u b := by
  simp only [microStep, ctx, main]

theorem runLines_micro {ls : List Line} (step : microStep b = .next b') :
    runLines (.micro :: ls) b = runLines ls b' :=
  runLines_cons (l := .micro) step

theorem exists_next_ite {p : Prop} [Decidable p] {x y : Host.Outcome State Fault Refusal}
    (then_ : p → ∃ b', x = .next b') (else_ : ¬ p → ∃ b', y = .next b') : ∃ b', (if p then x else y) = .next b' := by
  split
  · exact then_ ‹p›
  · exact else_ ‹¬ p›

theorem exists_microSnapshot (reg : Word) (low : 1 ≤ u) (upTo : u ≤ 3 + b.params.wDp.lanes) :
    ∃ b', microSnapshot cmd reg u b = .next b' :=
  exists_next_ite (fun _ => by omega) fun _ => exists_next_ite (fun _ => ⟨_, rfl⟩) fun _ =>
    exists_next_ite (fun _ => ⟨_, rfl⟩) fun _ => exists_next_ite (fun _ => ⟨_, rfl⟩) fun _ =>
    exists_next_ite (fun _ => ⟨_, rfl⟩) fun _ => by omega

theorem exists_microSetPeriod (p : Half) (low : 1 ≤ u) (upTo : u ≤ 6 + b.params.wDp.cntLanes + b.params.wDp.lanes) :
    ∃ b', microSetPeriod cmd p u b = .next b' :=
  exists_next_ite (fun _ => by omega) fun _ => exists_next_ite (fun _ => ⟨_, rfl⟩) fun _ =>
    exists_next_ite (fun _ => ⟨_, rfl⟩) fun _ => exists_next_ite (fun _ => ⟨_, rfl⟩) fun _ =>
    exists_next_ite (fun _ => ⟨_, rfl⟩) fun _ => exists_next_ite (fun _ => ⟨_, rfl⟩) fun _ =>
    exists_next_ite (fun _ => ⟨_, rfl⟩) fun _ => exists_next_ite (fun _ => ⟨_, rfl⟩) fun _ =>
    exists_next_ite (fun _ => ⟨_, rfl⟩) fun _ => by omega

/-- A command has each of its micro-steps; only the read of `BUF` asks for more, an index (R57, R91, R112). -/
theorem exists_microMain (host : cmd.cls = .hostCommand) (low : 1 ≤ u) (upTo : u ≤ lastMicro b.params.wDp cmd)
    (index : cmd = .rbPop ∨ cmd = .rbPeek → u = 5 → b.micro.t.toNat < b.params.n) :
    ∃ b', microMain cmd u b = .next b' := by
  cases cmd with
  | rbPop =>
    by_cases reads : u = 5
    · subst reads
      simp only [microMain, microRbPop, readBuf_of_lt (index (.inl rfl) rfl)]
      exact ⟨_, rfl⟩
    · simp only [lastMicro] at upTo
      obtain rfl | rfl | rfl | rfl | rfl | rfl | rfl | rfl :
        u = 1 ∨ u = 2 ∨ u = 3 ∨ u = 4 ∨ u = 6 ∨ u = 7 ∨ u = 8 ∨ u = 9 := by omega
      all_goals exact ⟨_, rfl⟩
  | rbPeek =>
    by_cases reads : u = 5
    · subst reads
      simp only [microMain, microRbPeek, readBuf_of_lt (index (.inr rfl) rfl)]
      exact ⟨_, rfl⟩
    · simp only [lastMicro] at upTo
      obtain rfl | rfl | rfl | rfl | rfl | rfl : u = 1 ∨ u = 2 ∨ u = 3 ∨ u = 4 ∨ u = 6 ∨ u = 7 := by omega
      all_goals exact ⟨_, rfl⟩
  | clkStatus =>
    simp only [lastMicro] at upTo
    obtain rfl | rfl | rfl | rfl | rfl : u = 1 ∨ u = 2 ∨ u = 3 ∨ u = 4 ∨ u = 5 := by omega
    all_goals exact ⟨_, rfl⟩
  | clkSetPeriod p => exact exists_microSetPeriod p low upTo
  | clkStop => exact exists_microSetPeriod _ low upTo
  | clkGetMs | clkGetPeriod => exact exists_microSnapshot _ low upTo
  | evTick | evRx | evEnv | isrTick | isrRx => cases host
  | _ =>
    simp only [lastMicro] at upTo
    obtain rfl | rfl : u = 1 ∨ u = 2 := by omega
    all_goals exact ⟨_, rfl⟩

/-! ## What Layer A owes along one command -/

/-- Along the sequence of a command that takes Layer A from `s` to `t`, Layer A has yet to run it, or has run it and Layer B
has yet to answer. -/
inductive Owes (s t : State) (w : Word) : State → List Word → List Response → Prop where
  | command : Owes s t w s [w] []
  | answer {r : Response} (answered : t.resp = some r) : Owes s t w t [] [r]

/-- A micro-step that drives no response leaves one of the two owed. -/
theorem Owes.of_reply (owes : Owes s t w a ws rs) (effect : Effect s cmd t) (reply : MainReply a b' cmd ws rs)
    (silent : b'.resp = none) : ∃ a' ws' rs', Owes s t w a' ws' rs' ∧ Sim a' b' ws' rs' [] := by
  cases reply with
  | goes _ sim => exact ⟨a, ws, rs, owes, sim⟩
  | runs _ effect' answer sim =>
    cases owes
    obtain rfl := Host.Outcome.next.inj (effect'.exec_eq.symm.trans effect.exec_eq)
    exact ⟨_, [], _, .answer answer, sim⟩
  | answers answer => cases silent.symm.trans answer

/-- The micro-step that drives the response ends the sequence where Layer A ended. -/
theorem Owes.settled_of_reply {r : Response} (owes : Owes s t w a ws rs) (reply : MainReply a b' cmd ws rs)
    (driven : b'.resp = some r) (ready : hostReady b' = true) : b'.resp = t.resp ∧ b'.layerA = t.layerA := by
  cases reply with
  | goes silent | runs silent => cases silent.symm.trans driven
  | answers answer sim =>
    obtain ⟨-, -, -, same⟩ := sim.of_idle ready
    cases owes with
    | answer answered => exact ⟨answer.trans answered.symm, same.symm⟩

/-- The read of `BUF` of `RB.POP` and `RB.PEEK` stands inside the bracket. -/
theorem Sim.ring_progress (sim : Sim a b ws rs hs) (ctx : b.micro.ctx = .main) (main : b.micro.main = .busy cmd 5)
    (ring : cmd = .rbPop ∨ cmd = .rbPeek) : ws ≠ [] ∧ a.params = b.params ∧ RingProgress a b cmd 5 := by
  have params : a.params = b.params := congrArg Prod.fst sim.sources
  have unique {cmd' : Instr} {v : Nat} (other : b.micro.main = .busy cmd' v) : cmd' = cmd ∧ v = 5 :=
    MainSeq.busy.inj (other.symm.trans main)
  cases sim with
  | level _ _ level =>
    cases level with
    | idle idle => cases idle.symm.trans main
    | called called => cases (unique called).2
    | answered last =>
      obtain ⟨rfl, isLast⟩ := unique last
      obtain rfl | rfl := ring <;> cases isLast
  | bracket _ busy _ _ _ _ _ progress =>
    obtain ⟨rfl, rfl⟩ := unique busy
    exact ⟨List.cons_ne_nil _ _, params, (progress_ring ring).mp progress⟩
  | programmed _ busy writes =>
    obtain ⟨rfl, -⟩ := unique busy
    obtain rfl | rfl := ring <;> cases writes
  | tick isr | rx isr => cases isr.symm.trans ctx

/-- A command that Layer A can run finds an element where it reads one (R57). -/
theorem Effect.ring_index (h : Effect s cmd t) (ring : cmd = .rbPop ∨ cmd = .rbPeek) (occupied : s.count ≠ 0#8) :
    s.tail.toNat < s.params.n := by
  cases h with
  | popEmpty empty | peekEmpty empty => exact absurd empty occupied
  | pop _ index | peek _ index => exact index
  | _ => simp at ring

theorem Owes.read_index (owes : Owes s t w a ws rs) (effect : Effect s cmd t) (sim : Sim a b ws rs hs)
    (ctx : b.micro.ctx = .main) (main : b.micro.main = .busy cmd u) (ring : cmd = .rbPop ∨ cmd = .rbPeek) (reads : u = 5) :
    b.micro.t.toNat < b.params.n := by
  subst reads
  obtain ⟨owed, params, progress⟩ := sim.ring_progress ctx main ring
  cases owes with
  | command =>
    have occupied : s.count ≠ 0#8 := progress.occupied (by omega) (by obtain rfl | rfl := ring <;> simp [lastMicro])
    rw [progress.indexed le_rfl occupied, ← params]
    exact effect.ring_index ring occupied
  | answer => exact absurd rfl owed

/-! ## The sequence -/

/-- The rest of a command's micro-sequence ends in the response and state of the command at Layer A. -/
theorem Owes.finishes (effect : Effect s cmd t) (host : cmd.cls = .hostCommand) (owes : Owes s t w a ws rs)
    (sim : Sim a b ws rs []) (gate : b.gateInv) (ctx : b.micro.ctx = .main) (main : b.micro.main = .busy cmd u) :
    ∃ k v, runLines (List.replicate k .micro) b = .next v ∧ hostReady v = true ∧ v.resp = t.resp ∧
      v.layerA = t.layerA := by
  induction left : lastMicro b.params.wDp cmd - u using Nat.strong_induction_on generalizing a b u ws rs with
  | _ n ih =>
    subst left
    obtain ⟨low, upTo, -⟩ : MainGate b.params.wDp b.ie (.busy cmd u) := main ▸ (gateInv_iff.mp gate).1
    obtain ⟨b', next⟩ := exists_microMain host low upTo (owes.read_index effect sim ctx main)
    have step : microStep b = .next b' := (microStep_of_main ctx main).trans next
    have micro := MainEffect.of_microMain next
    have ctx' := micro.keeps_ctx.trans ctx
    obtain ⟨-, reply⟩ := sim.reply ctx main micro
    obtain before | ⟨-, rfl⟩ := micro.last_or_before
    · obtain ⟨v, later, main', silent⟩ := micro.goes_on before
      obtain ⟨params, -⟩ := setting_eq_iff.mp (microStep_keeps_setting step)
      obtain ⟨a', ws', rs', owes', sim'⟩ := owes.of_reply effect reply silent
      obtain ⟨k, v, run, done⟩ :=
        ih _ (by rw [params]; omega) owes' sim' (microStep_keeps_gate gate step) ctx' main' rfl
      exact ⟨k + 1, v, (runLines_micro step).trans run, done⟩
    · have ready := hostReady_iff.mpr ⟨ctx', rfl⟩
      exact ⟨1, _, runLines_micro step, ready, owes.settled_of_reply reply rfl ready⟩

theorem decodeHost_encode {wT : Nat} (host : cmd.cls = .hostCommand) : decodeHost wT (encode cmd) = some cmd := by
  have wf : cmd.wellFormed wT = true := by
    cases cmd with
    | evRx => cases host
    | _ => rfl
  exact decodeHost_some_iff.mpr ⟨decode_ok_iff_encode.mpr ⟨rfl, wf⟩, host⟩

/-- Settles O53: when its word is driven, Layer A owes the command and nothing has been read. -/
theorem microSequenceEqualsCommand : Obligations.MicroSequenceEqualsCommand := by
  intro i s t host ready runs
  obtain ⟨ctx, -⟩ := hostReady_iff.mp ready
  have word := decodeHost_encode (wT := s.params.wT) host
  have starts : performLine (.start (encode i)) s = .next { silent s with micro.main := .busy i 1 } := by
    simp only [performLine, startCommand, ready, word, if_true]
  have sim : Sim s { silent s with micro.main := .busy i 1 } [encode i] [] [] := .of_main ctx rfl (.called rfl word)
  have gate := (LineEffect.of_perform starts).keeps_gate (gateInv_of_ready ready)
  obtain ⟨k, u, run, done⟩ := Owes.finishes (Effect.of_exec runs) host .command sim gate ctx rfl
  exact ⟨k, u, (runLines_cons starts).trans run, done⟩

end Sys2Proof.Machine
end

section
/-! The two handlers run micro-step by micro-step (R91, R112), whatever command the main context has in progress. -/

namespace Sys2Proof.Machine

variable {s t : State} {i : Nat} {carry : Bool}

/-! ## `ISR.RX` -/

/-- On a full buffer: lines 1, 2, 7 and 8. -/
theorem runLines_rx_full (full : s.count.toNat = s.params.n) :
    runLines (List.replicate 4 .micro) (enterHandler .rx (silent s)) =
      .next { s with rxPend := false, resp := none, micro.isrC := s.count, micro.ctx := .main } := by
  simp [runLines, performLine, microStep, microIsrRx, goIsr, enterHandler, silent, clearRx, leaveHandler, full]

/-- With room: all eight lines. -/
theorem runLines_rx_room (room : s.count.toNat ≠ s.params.n) (index : s.head.toNat < s.params.n) :
    runLines (List.replicate 8 .micro) (enterHandler .rx (silent s)) =
      .next { s with
        buf := s.buf.write s.head.toNat (fitElem s.params.wT s.rxData)
        head := nextIndex s.params.n s.head
        count := s.count + 1#8
        rxPend := false
        resp := none
        micro.isrC := s.count
        micro.isrH := s.head
        micro.ctx := .main } := by
  simp [runLines, performLine, microStep, microIsrRx, goIsr, enterHandler, silent, clearRx, leaveHandler, writeBuf, room,
    index]

/-! ## `ISR.TICK` -/

/-- `ISR.TICK` with `i` lanes added (R112). -/
def tickAfter (s : State) (i : Nat) (carry : Bool) : State :=
  { s with
    acc := sumAfter s.params.wDp s.acc s.tickPeriodMs i
    resp := none
    micro.carry := carry
    micro.ctx := .isr .tick (2 + i) }

theorem microStep_of_tick {u : Nat} (ctx : s.micro.ctx = .isr .tick u) : microStep s = microIsrTick u s := by
  simp only [microStep, ctx]

theorem microIsrTick_lane (isLane : i < s.params.wDp.lanes) : microIsrTick (2 + i) s = .next { s with
    acc := setLane32 s.params.wDp s.acc i (laneSum s i % 2 ^ s.params.wDp.bits)
    resp := none
    micro.carry := decide (laneSum s i / 2 ^ s.params.wDp.bits ≠ 0)
    micro.ctx := .isr .tick (2 + i + 1) } := by
  simp only [microIsrTick]
  rw [if_neg (by omega), if_neg (by omega), if_pos (by omega), Nat.add_sub_cancel_left]
  rfl

theorem microIsrTick_clear : microIsrTick (2 + s.params.wDp.lanes) s =
    .next { s with tickPend := false, resp := none, micro.ctx := .isr .tick (2 + s.params.wDp.lanes + 1) } := by
  have lanes := lanes_pos s.params.wDp
  simp only [microIsrTick]
  rw [if_neg (by omega), if_neg (by omega), if_neg (by omega), if_pos trivial]
  rfl

theorem microIsrTick_leave : microIsrTick (2 + s.params.wDp.lanes + 1) s =
    .next { s with resp := none, micro.ctx := .main } := by
  simp only [microIsrTick]
  rw [if_neg (by omega), if_neg (by omega), if_neg (by omega), if_neg (by omega), if_pos (by omega)]
  rfl

/-- The micro-step of lane `i` takes the sum and the carry one lane further. -/
theorem microStep_tickAfter (isLane : i < s.params.wDp.lanes)
    (carried : bitNat carry = carryAfter s.params.wDp s.acc s.tickPeriodMs i) :
    ∃ carry', bitNat carry' = carryAfter s.params.wDp s.acc s.tickPeriodMs (i + 1) ∧
      microStep (tickAfter s i carry) = .next (tickAfter s (i + 1) carry') := by
  obtain ⟨sum, carried'⟩ := sumAfter_succ (t := laneSum (tickAfter s i carry) i) isLane rfl carried rfl
  refine ⟨_, carried', (microStep_of_tick rfl).trans ((microIsrTick_lane (s := tickAfter s i carry) isLane).trans ?_)⟩
  exact congrArg (fun acc : Word => Host.Outcome.next { tickAfter s (i + 1) (decide
    (laneSum (tickAfter s i carry) i / 2 ^ s.params.wDp.bits ≠ 0)) with acc := acc }) sum

/-- The first micro-step and those of `i` lanes (R112). -/
theorem runLines_tick_lanes (upTo : i ≤ s.params.wDp.lanes) :
    ∃ carry, bitNat carry = carryAfter s.params.wDp s.acc s.tickPeriodMs i ∧
      runLines (List.replicate (i + 1) .micro) (enterHandler .tick (silent s)) = .next (tickAfter s i carry) := by
  induction i with
  | zero =>
    refine ⟨false, (carryAfter_zero ..).symm, ?_⟩
    rw [tickAfter, sumAfter_zero]
    rfl
  | succ i ih =>
    obtain ⟨carry, carried, run⟩ := ih (by omega)
    obtain ⟨carry', carried', step⟩ := microStep_tickAfter (by omega) carried
    refine ⟨carry', carried', ?_⟩
    rw [List.replicate_succ', runLines_append run, runLines_micro step]
    rfl

/-- The whole of `ISR.TICK`: the lanes added, the flag cleared, the core returned. -/
theorem exists_run_tick (s : State) : ∃ k carry, runLines (List.replicate k .micro) (enterHandler .tick (silent s)) =
    .next { s with
      acc := accumulate s.acc s.tickPeriodMs
      tickPend := false
      resp := none
      micro.carry := carry
      micro.ctx := .main } := by
  obtain ⟨carry, -, run⟩ := runLines_tick_lanes (s := s) le_rfl
  refine ⟨s.params.wDp.lanes + 1 + 2, carry, ?_⟩
  rw [List.replicate_add, runLines_append run, ← sumAfter_lanes s.params.wDp]
  have clear := (microStep_of_tick rfl).trans (microIsrTick_clear (s := tickAfter s s.params.wDp.lanes carry))
  have leave := (microStep_of_tick rfl).trans (microIsrTick_leave (s := { tickAfter s s.params.wDp.lanes carry with
    tickPend := false, micro.ctx := .isr .tick (2 + s.params.wDp.lanes + 1) }))
  exact (runLines_micro clear).trans (runLines_micro leave)

/-- Settles O54: the handlers end in the states of R93 and R108, with `CTX` and their temporaries alone touched of the
Layer B state. -/
theorem microHandlerEqualsDispatch : Obligations.MicroHandlerEqualsDispatch := by
  intro s _ _
  refine ⟨fun t runs => ?_, fun t runs => ?_⟩
  · obtain ⟨enabled, rfl⟩ := execIsrTick_next_iff.mp runs
    obtain ⟨k, carry, run⟩ := exists_run_tick s
    exact ⟨k, _, (runLines_cons (enter_next_iff.mpr ⟨enabled, rfl⟩)).trans run, rfl, rfl, rfl⟩
  · obtain ⟨enabled, ⟨full, rfl⟩ | ⟨room, index, rfl⟩⟩ := execIsrRx_next_iff.mp runs
    · exact ⟨4, _, (runLines_cons (enter_next_iff.mpr ⟨enabled, rfl⟩)).trans (runLines_rx_full full), rfl, rfl, rfl⟩
    · exact ⟨8, _, (runLines_cons (enter_next_iff.mpr ⟨enabled, rfl⟩)).trans (runLines_rx_room room index), rfl, rfl, rfl⟩

end Sys2Proof.Machine
end

section
/-! The clock operations of Layer A, one by one (R102 to R108): what they answer, what they write, and that nothing else
writes the clock's registers (R113). -/

namespace Sys2Proof.Machine

variable {s t : State} {i : Instr}

/-! ## The clock commands -/

/-- A bool result is the word 1 or 0 (R64). -/
theorem ofNat_bitNat (b : Bool) : BitVec.ofNat 32 (bitNat b) = if b then 1#32 else 0#32 := by
  cases b <;> rfl

/-- Settles O27: the result is the level sampled. -/
theorem initSamplesTimeInvalid : Obligations.InitSamplesTimeInvalid := by
  refine ⟨rfl, fun s => ?_⟩
  rw [Effect.init.exec_eq, ofNat_bitNat]

/-- Settles O29: the two commands share the Off state and the answer. -/
theorem stopIsSetPeriodOff : Obligations.StopIsSetPeriodOff :=
  ⟨rfl, fun _ => ⟨Effect.stop.exec_eq, Effect.stop.exec_eq.trans Effect.setPeriodOff.exec_eq.symm⟩⟩

/-- The period is the whole operand field of the word (R62, R65). -/
theorem encode_clkSetPeriod (p : Half) : encode (.clkSetPeriod p) = 0x21000000#32 + p.setWidth 32 := by
  have narrow := p.isLt
  apply BitVec.eq_of_toNat_eq
  rw [encode, toNat_ofFields]
  simp only [Instr.opcode, Instr.operandField, BitVec.toNat_add, BitVec.toNat_setWidth, BitVec.toNat_ofNat]
  omega

/-- Settles O28: no count, a count the source refuses, a count it takes; the register holds the whole quotient. -/
theorem setPeriodProgramsSource : Obligations.SetPeriodProgramsSource := by
  refine ⟨encode_clkSetPeriod, fun p s _ => ?_⟩
  by_cases off : p = 0#16
  · subst off
    exact ⟨_, Effect.setPeriodOff.exec_eq, fun _ => ⟨rfl, rfl, rfl, rfl⟩, fun ne => absurd rfl ne,
      fun ne => absurd rfl ne, rfl⟩
  · by_cases refused : s.envSrcOk = false
    · exact ⟨_, (Effect.setPeriodRefused p off refused).exec_eq, fun zero => absurd zero off,
        fun _ _ => ⟨rfl, rfl, rfl, rfl⟩, fun _ accepted => absurd refused (by simp [accepted]), rfl⟩
    · exact ⟨_, (Effect.setPeriod p off (by simpa using refused)).exec_eq, fun zero => absurd zero off,
        fun _ refused' => absurd refused' refused, fun _ _ => ⟨rfl, rfl, periodMs_toNat _ p, rfl⟩, rfl⟩

/-- `FAULT` in bit 0, `SRC_EN` in bit 1, 0 above (R106). -/
theorem getLsbD_statusWord (srcEn fault : Bool) :
    (statusWord srcEn fault).getLsbD 0 = fault ∧ (statusWord srcEn fault).getLsbD 1 = srcEn ∧
      ∀ k, 2 ≤ k → (statusWord srcEn fault).getLsbD k = false := by
  have small : (statusWord srcEn fault).toNat < 2 ^ 2 := by cases srcEn <;> cases fault <;> decide
  refine ⟨?_, ?_, fun k high => ?_⟩
  · cases srcEn <;> cases fault <;> rfl
  · cases srcEn <;> cases fault <;> rfl
  · exact Nat.testBit_lt_two_pow (small.trans_le (Nat.pow_le_pow_right Nat.two_pos high))

/-- Settles O30: the reads change the response alone. -/
theorem clockReadsAnswerRegisters : Obligations.ClockReadsAnswerRegisters :=
  ⟨rfl, rfl, rfl, fun s => ⟨Effect.getMs.exec_eq, Effect.getPeriod.exec_eq, statusWord s.srcEn s.fault,
    Effect.status.exec_eq, getLsbD_statusWord s.srcEn s.fault⟩⟩

/-! ## The tick handler -/

/-- Settles O31: dispatched, the handler adds and clears; masked, unbound or without a request it is not dispatched. -/
theorem tickHandlerAccumulates : Obligations.TickHandlerAccumulates := by
  refine ⟨rfl, fun s => ⟨fun enabled bound_ pending_ ctx => ?_, fun blocked => ?_⟩⟩
  · have found : dispatchable .tick s = true := dispatchable_iff.mpr ⟨enabled, bound_, pending_, ctx⟩
    exact ⟨_, (Effect.tick found).exec_eq, accumulate_toNat _ _, rfl, rfl, rfl⟩
  · exact dispatch_of_not (body := tickHandler) (not_dispatchable blocked)

/-! ## Who writes the clock's registers (R113) -/

theorem Effect.keeps_acc (h : Effect s i t) (notTick : i ≠ .isrTick) : t.acc = s.acc := by
  cases h with
  | tick => exact absurd rfl notTick
  | _ => rfl

theorem Effect.keeps_source (h : Effect s i t) (notSetPeriod : ∀ p, i ≠ .clkSetPeriod p) (notStop : i ≠ .clkStop) :
    t.tickPeriodMs = s.tickPeriodMs ∧ t.srcCnt = s.srcCnt ∧ t.srcEn = s.srcEn := by
  cases h with
  | setPeriodOff | setPeriodRefused | setPeriod => exact absurd rfl (notSetPeriod _)
  | stop => exact absurd rfl notStop
  | _ => exact ⟨rfl, rfl, rfl⟩

theorem Effect.keeps_fault (h : Effect s i t) (notInit : i ≠ .clkInit) : t.fault = s.fault := by
  cases h with
  | init => exact absurd rfl notInit
  | _ => rfl

/-- Settles O32: each register is left alone by every effect but its writers'. -/
theorem whoChangesClockState : Obligations.WhoChangesClockState := by
  intro i s t h
  have effect := Effect.of_exec h
  exact ⟨effect.keeps_acc, effect.keeps_source, effect.keeps_fault⟩

end Sys2Proof.Machine
end

section
/-! What the accumulator counts over runs of Layer A (R109, R110): the periods of the tick handler's runs. -/

namespace Sys2Proof.Machine

variable {s t : State} {i : Instr} {l : Line} {ls : List Line} {w : Word}

/-! ## One line -/

/-- What a line does to the accumulator: it adds the periods the line counts, modulo 2^32 (R100). -/
def Counts (l : Line) (s t : State) : Prop :=
  t.acc = s.acc + BitVec.ofNat 32 (tickPeriods [l] s).sum

theorem counts_of_tick (performs : performLine (.word 0x90000000#32) s = .next t)
    (added : t.acc = accumulate s.acc s.tickPeriodMs) : Counts (.word 0x90000000#32) s t := by
  simp [Counts, tickPeriods, performs, added, accumulate_eq_add]

theorem counts_of_other (performs : performLine l s = .next t) (other : l ≠ .word 0x90000000#32)
    (kept : t.acc = s.acc) : Counts l s t := by
  simp [Counts, tickPeriods, performs, other, kept]

/-- A word line of a trace that runs an operation counts the period exactly where the operation is `ISR.TICK`. -/
theorem Effect.counts (h : Effect s i t) (decodes : decode s.params.wT w = .ok i)
    (performs : performLine (.word w) s = .next t) : Counts (.word w) s t := by
  have tick : w = 0x90000000#32 ↔ i = .isrTick := eq_encode_iff (j := .isrTick) decodes rfl
  by_cases isTick : i = .isrTick
  · obtain rfl := tick.mpr isTick
    subst isTick
    cases h
    exact counts_of_tick performs rfl
  · exact counts_of_other performs (fun same => isTick (tick.mp (Line.word.inj same))) (h.keeps_acc isTick)

theorem LineEffect.counts (h : LineEffect s l t) (layerA : l.layerA = true) (performs : performLine l s = .next t) :
    Counts l s t := by
  cases h with
  | command _ decodes _ effect | event decodes _ effect => exact effect.counts decodes performs
  | port _ _ host effect =>
    exact counts_of_other performs nofun (effect.keeps_acc fun tick => by subst tick; cases host)
  | illegal _ notTrace => exact counts_of_other performs (fun same => by cases same; cases notTrace) rfl
  | portIllegal => exact counts_of_other performs nofun rfl
  | reset | start | startIllegal | enter | micro => cases layerA

/-! ## A run -/

theorem tickPeriods_cons (performs : performLine l s = .next t) :
    tickPeriods (l :: ls) s = tickPeriods [l] s ++ tickPeriods ls t := by
  simp [tickPeriods, performs]

/-- Over a run of Layer A the accumulator advances by the periods of the handler's runs (R109). -/
theorem run_counts (layerA : ∀ l ∈ ls, l.layerA = true) (run : runLines ls s = .next t) :
    t.acc = s.acc + BitVec.ofNat 32 (tickPeriods ls s).sum := by
  induction ls generalizing s with
  | nil => cases run; simp [tickPeriods]
  | cons l ls ih =>
    obtain ⟨u, performs, rest⟩ := runLines_cons_next_iff.mp run
    have one : Counts l s u := (LineEffect.of_perform performs).counts (layerA l List.mem_cons_self) performs
    calc t.acc
        = u.acc + BitVec.ofNat 32 (tickPeriods ls u).sum := ih (fun k mem => layerA k (List.mem_cons_of_mem l mem)) rest
      _ = s.acc + BitVec.ofNat 32 ((tickPeriods [l] s).sum + (tickPeriods ls u).sum) := by
          rw [one, BitVec.add_assoc, BitVec.ofNat_add]
      _ = s.acc + BitVec.ofNat 32 (tickPeriods (l :: ls) s).sum := by
          rw [tickPeriods_cons (ls := ls) performs, List.sum_append]

/-- Settles O33: the accumulator is 0 at reset (R161), and `CLK.GETMS` answers it. -/
theorem exactMillisecondCount : Obligations.ExactMillisecondCount := by
  intro q ls s layerA run
  have total : s.acc.toNat = (tickPeriods ls (State.resetWith q)).sum % 2 ^ 32 := by
    rw [run_counts layerA run, show (State.resetWith q).acc = 0#32 from rfl, BitVec.zero_add, BitVec.toNat_ofNat]
  refine ⟨⟨_, s.acc, Effect.getMs.exec_eq, rfl, total⟩, fun m p same => ?_⟩
  rw [total, same, List.sum_replicate, smul_eq_mul]

/-- Settles O34: what lies between the two answers is what the accumulator advanced by. -/
theorem monotonicModuloWrap : Obligations.MonotonicModuloWrap := by
  intro ls s t a b layerA run first second
  obtain rfl : s.acc = a := by cases Effect.getMs.exec_eq.symm.trans first; rfl
  obtain rfl : t.acc = b := by cases Effect.getMs.exec_eq.symm.trans second; rfl
  have advance := run_counts layerA run
  have between : (t.acc - s.acc).toNat = (tickPeriods ls s).sum % 2 ^ 32 := by
    rw [advance, BitVec.add_comm, BitVec.add_sub_cancel, BitVec.toNat_ofNat]
  refine ⟨between, fun below => between.trans (Nat.mod_eq_of_lt below), fun noWrap => ?_⟩
  rw [advance, BitVec.toNat_add, BitVec.toNat_ofNat]
  omega

end Sys2Proof.Machine
end

section
/-! The clock registers at both layers (R103, R104, R112): while `CLK.SETPERIOD` or `CLK.STOP` writes them lane by lane the
source is disabled, and no other operation writes them. -/

namespace Sys2Proof.Machine

variable {s t : State} {u : Nat} {cmd : Instr} {ch : Channel} {l : Line} {i : Instr} {p : Half}

/-! ## Where the clock is at rest -/

/-- What the coherence of the clock speaks of: the parameters, the registers, and how far a programming has come. -/
def State.clock (s : State) : Params × Word × Half × Bool × Half × MainSeq :=
  (s.params, s.tickPeriodMs, s.srcCnt, s.srcEn, s.micro.q, s.micro.main)

theorem clockCoherent_of_clock_eq (same : t.clock = s.clock) (coherent : s.clockCoherent) : t.clockCoherent := by
  simp only [State.clock, Prod.mk.injEq] at same
  obtain ⟨params, period, count, enable, q, main⟩ := same
  simpa only [State.clockCoherent, clockInSetPeriod, State.clockInv, params, period, count, enable, q, main]
    using coherent

theorem clockCoherent_of_programs (main : s.micro.main = .busy cmd u) (writes : programs cmd = some p) :
    s.clockCoherent ↔ clockInSetPeriod s p u := by
  simp only [State.clockCoherent, main]
  cases cmd with
  | clkSetPeriod | clkStop => cases writes; rfl
  | _ => cases writes

theorem clockCoherent_of_idle (main : s.micro.main = .idle) : s.clockCoherent ↔ s.clockInv := by
  simp only [State.clockCoherent, main]

/-- A command that programs nothing sees the clock at rest. -/
theorem clockCoherent_of_other (main : s.micro.main = .idle ∨ ∃ u, s.micro.main = .busy cmd u)
    (other : programs cmd = none) : s.clockCoherent ↔ s.clockInv := by
  obtain main | ⟨u, main⟩ := main
  · exact clockCoherent_of_idle main
  · simp only [State.clockCoherent, main]
    cases cmd with
    | clkSetPeriod | clkStop => cases other
    | _ => rfl

/-! ## The commands -/

/-- Before the first lane a programming has written no register but the enable (R112). -/
theorem clockInSetPeriod_of_early (early : u ≤ 4) (rest : u ≤ 2 → s.clockInv) (off : 3 ≤ u → s.srcEn = false)
    (sampled : u = 4 → s.micro.q = 0#16 ∨ s.micro.q = p) : clockInSetPeriod s p u :=
  ⟨rest, fun ⟨late, _⟩ => off late, fun _ => sampled (by omega), fun _ _ _ => by omega, fun _ _ _ => by omega,
    fun _ => by omega⟩

/-- Past its sample a programming has written the lanes before `u`, and after the last the enable (R112). -/
theorem clockInSetPeriod_of_late {d : DataPath} (path : s.params.wDp = d) (late : 5 ≤ u)
    (off : u ≤ 4 + d.cntLanes + d.lanes → s.srcEn = false) (sampled : s.micro.q = 0#16 ∨ s.micro.q = p)
    (counts : ∀ i < d.cntLanes, 4 + i < u → lane d s.srcCnt.toNat i = lane d s.micro.q.toNat i)
    (periods : ∀ i < d.lanes, 4 + d.cntLanes + i < u →
      lane d s.tickPeriodMs.toNat i = lane d (newPeriod s.params.fTick p s.micro.q).toNat i)
    (after : 4 + d.cntLanes + d.lanes < u → s.clockInv) : clockInSetPeriod s p u := by
  subst path
  exact ⟨by omega, fun ⟨_, upTo⟩ => off upTo, fun _ => sampled, counts, periods, after⟩

/-- With every lane written, the enable set by what was sampled leaves the clock as the programming asked (R103). -/
theorem clockInv_of_programmed {d : DataPath} (sampled : s.micro.q = 0#16 ∨ s.micro.q = p)
    (counts : ∀ i < d.cntLanes, lane d s.srcCnt.toNat i = lane d s.micro.q.toNat i)
    (periods : ∀ i < d.lanes,
      lane d s.tickPeriodMs.toNat i = lane d (newPeriod s.params.fTick p s.micro.q).toNat i)
    (enable : s.srcEn = decide (s.micro.q ≠ 0#16)) : s.clockInv := by
  have count : s.srcCnt = s.micro.q := eq_of_lanes16 counts
  have period : s.tickPeriodMs = newPeriod s.params.fTick p s.micro.q := eq_of_lanes32 periods
  by_cases off : s.micro.q = 0#16
  · exact .inr ⟨by simp [enable, off], count.trans off, by simp [period, newPeriod, off]⟩
  · obtain rfl := sampled.resolve_left off
    exact .inl ⟨by simp [enable, off], count ▸ off, by simp [period, newPeriod, off, count]⟩

/-- A micro-step of `CLK.SETPERIOD` or `CLK.STOP` writes the next lane, or what follows the lanes (R112). -/
theorem MainEffect.keeps_clockInSetPeriod (h : MainEffect s cmd u t) (writes : programs cmd = some p)
    (clock : clockInSetPeriod s p u) : t.clockCoherent := by
  obtain ⟨brackets, last⟩ := lastMicro_of_programs s.params.wDp writes
  have lanes := lanes_pos s.params.wDp
  obtain ⟨before, off, sampled, counts, periods, after⟩ := clock
  cases h with
  | mask =>
    refine (clockCoherent_of_programs rfl writes).mpr (clockInSetPeriod_of_early (by omega) ?_ ?_ ?_)
    · exact fun _ => before (by omega)
    · omega
    · omega
  | disable =>
    refine (clockCoherent_of_programs rfl writes).mpr (clockInSetPeriod_of_early (by omega) ?_ ?_ ?_)
    · omega
    · exact fun _ => rfl
    · omega
  | sample writes' =>
    obtain rfl := Option.some.inj (writes.symm.trans writes')
    refine (clockCoherent_of_programs rfl writes).mpr (clockInSetPeriod_of_early (by omega) ?_ ?_ ?_)
    · omega
    · exact fun _ => off (by omega)
    · exact fun _ => ite_eq_or_eq ..
  | countLane _ i isLane =>
    have grown := lanes_grow16 isLane fun j jLane earlier => counts j jLane (by omega)
    refine (clockCoherent_of_programs rfl writes).mpr (clockInSetPeriod_of_late (d := s.params.wDp) rfl (by omega) ?_ ?_
      ?_ ?_ ?_)
    · exact fun _ => off (by omega)
    · exact sampled (by omega)
    · exact fun j jLane upTo => grown j jLane (by omega)
    · exact fun j _ upTo => by omega
    · omega
  | periodLane writes' i isLane =>
    obtain rfl := Option.some.inj (writes.symm.trans writes')
    have grown := lanes_grow32 isLane fun j jLane earlier => periods j jLane (by omega)
    refine (clockCoherent_of_programs rfl writes).mpr (clockInSetPeriod_of_late (d := s.params.wDp) rfl (by omega) ?_ ?_
      ?_ ?_ ?_)
    · exact fun _ => off (by omega)
    · exact sampled (by omega)
    · exact fun j jLane _ => counts j jLane (by omega)
    · exact fun j jLane upTo => grown j jLane (by omega)
    · omega
  | enable =>
    have disabled : s.srcEn = false := off (by omega)
    have sampled := sampled (by omega)
    have counts := fun j jLane => counts j jLane (by omega)
    have periods := fun j jLane => periods j jLane (by omega)
    refine (clockCoherent_of_programs rfl writes).mpr (clockInSetPeriod_of_late (d := s.params.wDp) rfl (by omega) ?_
      sampled (fun j jLane _ => counts j jLane) (fun j jLane _ => periods j jLane) ?_)
    · omega
    · exact fun _ => clockInv_of_programmed (d := s.params.wDp) sampled counts periods (by simp [disabled])
  | unmask _ beforeLast =>
    refine (clockCoherent_of_programs rfl writes).mpr (clockInSetPeriod_of_late (d := s.params.wDp) rfl (by omega) ?_ ?_
      ?_ ?_ ?_)
    · omega
    · exact sampled (by omega)
    · exact fun j jLane _ => counts j jLane (by omega)
    · exact fun j jLane _ => periods j jLane (by omega)
    · exact fun _ => after (by omega)
  | answer isLast => exact (clockCoherent_of_idle rfl).mpr (after (by omega))
  | critEnter | critExit | bindTick | bindRx | init | popTail | popCount | statusFault | statusEnable => cases writes
  | predicate reads => obtain rfl | rfl | rfl := reads <;> cases writes
  | ringCount ring | ringEmpty ring | ringOccupied ring | ringTail ring | ringRead ring =>
    obtain rfl | rfl := ring <;> cases writes
  | readLane reads =>
    cases cmd with
    | clkGetMs | clkGetPeriod => cases writes
    | _ => cases reads

/-- No other command writes the source or the period (R113). -/
theorem MainEffect.keeps_clockInv (h : MainEffect s cmd u t) (other : programs cmd = none) (inv : s.clockInv) :
    t.clockInv := by
  cases h with
  | disable writes | countLane writes | periodLane writes | enable writes => cases other.symm.trans writes
  | _ => exact inv

theorem MainEffect.keeps_clockCoherent (h : MainEffect s cmd u t) (main : s.micro.main = .busy cmd u)
    (coherent : s.clockCoherent) : t.clockCoherent := by
  cases programmed : programs cmd with
  | some p => exact h.keeps_clockInSetPeriod programmed ((clockCoherent_of_programs main programmed).mp coherent)
  | none =>
    have inv := (clockCoherent_of_other (.inr ⟨u, main⟩) programmed).mp coherent
    exact (clockCoherent_of_other h.idle_or_busy programmed).mpr (h.keeps_clockInv programmed inv)

/-! ## The handlers, Layer A -/

theorem IsrEffect.keeps_clock (h : IsrEffect s ch u t) : t.clock = s.clock := by
  cases h <;> rfl

theorem Effect.keeps_clock (h : Effect s i t) (notHost : i.cls ≠ .hostCommand) : t.clock = s.clock := by
  obtain ⟨main, -, -, period, count, enable, -⟩ := mainSide_eq_iff.mp (h.keeps_mainSide notHost).1
  simp only [State.clock, h.keeps_params, period, count, enable, h.keeps_micro]

/-- A whole command runs where the clock is at rest. -/
theorem Effect.keeps_clockCoherent_of_ready (h : Effect s i t) (ready : hostReady s = true)
    (coherent : s.clockCoherent) : t.clockCoherent := by
  obtain ⟨-, main⟩ := hostReady_iff.mp ready
  obtain ⟨-, main'⟩ := hostReady_iff.mp (h.keeps_ready ready)
  exact (clockCoherent_of_idle main').mpr (h.keeps_clockInv ((clockCoherent_of_idle main).mp coherent))

/-! ## A line, a step -/

theorem microStep_keeps_clockCoherent (coherent : s.clockCoherent) (h : microStep s = .next t) : t.clockCoherent := by
  obtain ⟨ch, u, -, effect⟩ | ⟨-, cmd, u, main, effect⟩ := microStep_next h
  · exact clockCoherent_of_clock_eq effect.keeps_clock coherent
  · exact effect.keeps_clockCoherent main coherent

/-- A command at its first micro-step has written nothing. -/
theorem clockCoherent_of_first (main : s.micro.main = .busy i 1) (inv : s.clockInv) : s.clockCoherent := by
  cases programmed : programs i with
  | some p =>
    refine (clockCoherent_of_programs main programmed).mpr (clockInSetPeriod_of_early (by omega) ?_ ?_ ?_)
    · exact fun _ => inv
    · omega
    · omega
  | none => exact (clockCoherent_of_other (.inr ⟨1, main⟩) programmed).mpr inv

theorem LineEffect.keeps_clockCoherent (h : LineEffect s l t) (coherent : s.clockCoherent) : t.clockCoherent := by
  cases h with
  | command ready _ _ effect | port ready _ _ effect => exact effect.keeps_clockCoherent_of_ready ready coherent
  | event _ notHost effect => exact clockCoherent_of_clock_eq (effect.keeps_clock notHost) coherent
  | illegal | portIllegal | startIllegal | enter => exact clockCoherent_of_clock_eq rfl coherent
  | reset => exact (clockCoherent_of_idle rfl).mpr (.inr ⟨rfl, rfl, rfl⟩)
  | start ready =>
    obtain ⟨-, main⟩ := hostReady_iff.mp ready
    exact clockCoherent_of_first rfl ((clockCoherent_of_idle main).mp coherent)
  | micro next => exact microStep_keeps_clockCoherent coherent next

/-- Settles O51: the line performed keeps the clock coherent, and the pointer is no part of it. -/
theorem stepKeepsClockCoherent : Obligations.StepKeepsClockCoherent := by
  intro s t _ _ coherent h
  obtain ⟨l, v, -, performed, rfl⟩ := step_next_iff.mp h
  exact clockCoherent_of_clock_eq rfl ((LineEffect.of_perform performed).keeps_clockCoherent coherent)

end Sys2Proof.Machine
end

section
/-! `CLK.GETMS` under every schedule (R111): the bracket holds `ACC` still while its lanes are read, and once they are read
no line changes the answer. -/

namespace Sys2Proof.Machine

variable {b b' s t u : State} {k : Nat} {cmd : Instr} {ch : Channel} {l : Line} {ls : List Line} {i : Instr}
  {r : Response}

/-! ## A line while a command is in progress -/

/-- What a line leaves that is no micro-step of the command in progress: all that the answer is made of, `IE`, and inside a
bracket `ACC` and the core (R52, R53). -/
structure Waits (b b' : State) : Prop where
  answer : b'.answerPart = b.answerPart
  silent : b'.resp = none
  masks : b'.ie = b.ie
  bracket : b.micro.ctx = .main → b.ie = false → b'.micro.ctx = .main ∧ b'.acc = b.acc

theorem Effect.waits (h : Effect b i b') (notHost : i.cls ≠ .hostCommand) : Waits b b' := by
  obtain ⟨side, silent⟩ := h.keeps_mainSide notHost
  obtain ⟨-, -, ie, -, -, -, fault, -⟩ := mainSide_eq_iff.mp side
  refine ⟨by simp only [State.answerPart, h.keeps_params, fault, h.keeps_micro], silent, ie, fun ctx masked => ?_⟩
  refine ⟨h.keeps_micro ▸ ctx, h.keeps_acc fun tick => ?_⟩
  subst tick
  obtain ⟨enabled, -⟩ := h.ie_and_ctx_of_dispatch rfl
  cases enabled.symm.trans masked

theorem IsrEffect.waits (h : IsrEffect b ch k b') (ctx : b.micro.ctx = .isr ch k) : Waits b b' := by
  obtain ⟨side, silent⟩ := h.keeps_mainSide
  obtain ⟨-, -, ie, -⟩ := mainSide_eq_iff.mp side
  refine ⟨?_, silent, ie, fun main => by cases ctx.symm.trans main⟩
  cases h <;> rfl

/-- While a command is in progress a line is a reset, a micro-step of it, or leaves it waiting (R52, R141). -/
theorem LineEffect.of_busy (h : LineEffect b l b') (main : b.micro.main = .busy cmd k) :
    b' = resetBlock b ∨ Waits b b' ∨ b.micro.ctx = .main ∧ MainEffect b cmd k b' := by
  have notReady (ready : hostReady b = true) : False := by
    obtain ⟨-, idle⟩ := hostReady_iff.mp ready
    cases idle.symm.trans main
  cases h with
  | command ready | port ready | illegal ready | portIllegal ready | start ready | startIllegal ready =>
    exact (notReady ready).elim
  | reset => exact .inl rfl
  | event _ notHost effect => exact .inr (.inl (effect.waits notHost))
  | enter found =>
    obtain ⟨enabled, -⟩ := dispatchable_iff.mp found
    exact .inr (.inl ⟨rfl, rfl, rfl, fun _ masked => by cases enabled.symm.trans masked⟩)
  | micro next =>
    obtain ⟨ch, v, ctx, effect⟩ | ⟨ctx, cmd', v, main', effect⟩ := microStep_next next
    · exact .inr (.inl (effect.waits ctx))
    · obtain ⟨rfl, rfl⟩ := MainSeq.busy.inj (main'.symm.trans main)
      exact .inr (.inr ⟨ctx, effect⟩)

/-! ## The lines of one command -/

/-- Lines from `s` to `t` with a command in progress before each of them and none at the end. -/
inductive Finishes : List Line → State → State → Prop where
  | done {t : State} (idle : t.micro.main = .idle) : Finishes [] t t
  | step {l : Line} {ls : List Line} {s u t : State} (busy : s.micro.main ≠ .idle) (performs : performLine l s = .next u)
      (rest : Finishes ls u t) : Finishes (l :: ls) s t

/-- The parameters are those of the start over any run (R6). -/
theorem runLines_keeps_params (run : runLines ls s = .next t) : t.params = s.params := by
  induction ls generalizing s with
  | nil => cases run; rfl
  | cons l ls ih =>
    obtain ⟨u, performs, rest⟩ := runLines_cons_next_iff.mp run
    obtain ⟨params, -⟩ := setting_eq_iff.mp (performLine_keeps_setting performs)
    exact (ih rest).trans params

/-- A run that no shorter piece of its lines completes. -/
theorem Finishes.of_run (run : runLines ls s = .next t) (idle : t.micro.main = .idle)
    (first : ∀ ls₁ ls₂ u, ls = ls₁ ++ ls₂ → ls₂ ≠ [] → runLines ls₁ s = .next u → u.micro.main ≠ .idle) :
    Finishes ls s t := by
  induction ls generalizing s with
  | nil => cases run; exact .done idle
  | cons l ls ih =>
    obtain ⟨u, performs, rest⟩ := runLines_cons_next_iff.mp run
    have busy := first [] (l :: ls) s rfl (List.cons_ne_nil l ls) rfl
    refine .step busy performs (ih rest fun ls₁ ls₂ v split more run' => ?_)
    exact first (l :: ls₁) ls₂ v (congrArg (l :: ·) split) more ((runLines_cons performs).trans run')

theorem Finishes.eq_of_idle (h : Finishes ls s t) (idle : s.micro.main = .idle) : t = s := by
  cases h with
  | done => rfl
  | step busy => exact absurd idle busy

/-- A reset abandons the command without a response (R160). -/
theorem Finishes.silent_of_reset (h : Finishes ls (resetBlock s) t) : t.resp = none := by
  rw [h.eq_of_idle rfl]
  rfl

/-- At its last micro-step a command drives the answer it had when it came there, whatever has happened since (R91,
R112). -/
theorem Finishes.answer_of_last (h : Finishes ls s t) (main : s.micro.main = .busy cmd (lastMicro s.params.wDp cmd))
    (answered : t.resp = some r) : r = answerOf s cmd := by
  induction h with
  | done idle => cases idle.symm.trans main
  | @step l ls s u t _ performs rest ih =>
    obtain rfl | waits | ⟨-, effect⟩ := (LineEffect.of_perform performs).of_busy main
    · cases rest.silent_of_reset.symm.trans answered
    · obtain ⟨params, main', answer⟩ := answerPart_eq waits.answer
      rw [← answer]
      exact ih (by rw [main', main, params]) answered
    · obtain rfl := effect.of_last rfl
      obtain rfl := rest.eq_of_idle rfl
      exact (Option.some.inj answered).symm

/-! ## The lanes of `CLK.GETMS` -/

/-- `CLK.GETMS` before micro-step `k`, its bracket not yet left: the lanes read are those of `ACC` (R112). -/
structure Reading (b : State) (k : Nat) : Prop where
  main : b.micro.main = .busy .clkGetMs k
  bracket : 2 ≤ k → b.micro.ctx = .main ∧ b.ie = false
  lanes : ∀ j < b.params.wDp.lanes, 2 + j < k →
    lane b.params.wDp b.micro.tmp.toNat j = lane b.params.wDp b.acc.toNat j

/-- `CLK.GETMS` with its bracket just left: it has read the whole of `ACC`, and no handler is in progress. -/
structure Whole (b : State) : Prop where
  main : b.micro.main = .busy .clkGetMs (lastMicro b.params.wDp .clkGetMs)
  ctx : b.micro.ctx = .main
  value : b.micro.tmp = b.acc

theorem Reading.of_waits (reading : Reading b k) (waits : Waits b b') : Reading b' k := by
  obtain ⟨main, bracket, lanes⟩ := reading
  obtain ⟨params, main', answer⟩ := answerPart_eq waits.answer
  have tmp : b'.micro.tmp = b.micro.tmp := congrArg Response.d (congrFun answer .clkGetMs)
  refine ⟨main'.trans main, fun inside => ?_, fun j isLane read => ?_⟩
  · obtain ⟨ctx, masked⟩ := bracket inside
    exact ⟨(waits.bracket ctx masked).1, waits.masks.trans masked⟩
  · obtain ⟨ctx, masked⟩ := bracket (by omega)
    rw [params] at isLane
    rw [params, tmp, (waits.bracket ctx masked).2]
    exact lanes j isLane read

/-- A micro-step of `CLK.GETMS` masks, reads the next lane, or leaves the bracket with every lane read (R112). -/
theorem Reading.of_micro (reading : Reading b k) (upTo : k < lastMicro b.params.wDp .clkGetMs)
    (ctx : b.micro.ctx = .main) (h : MainEffect b .clkGetMs k b') :
    k + 1 < lastMicro b.params.wDp .clkGetMs ∧ Reading b' (k + 1) ∨ Whole b' := by
  obtain ⟨main, bracket, lanes⟩ := reading
  have pos := (lanes_pos b.params.wDp).1
  simp only [lastMicro] at upTo
  cases h with
  | mask => exact .inl ⟨by simp only [lastMicro]; omega, rfl, fun _ => ⟨ctx, rfl⟩, fun j _ read => by omega⟩
  | readLane reads j isLane =>
    obtain rfl := Option.some.inj reads
    obtain ⟨-, masked⟩ := bracket (by omega)
    have grown := lanes_grow32 isLane fun i iLane before => lanes i iLane (by omega)
    exact .inl ⟨by simp only [lastMicro]; omega, rfl, fun _ => ⟨ctx, masked⟩,
      fun i iLane read => grown i iLane (by omega)⟩
  | unmask _ beforeLast =>
    refine .inr ⟨by rw [beforeLast], ctx, ?_⟩
    simp only [lastMicro] at beforeLast
    exact eq_of_lanes32 fun j isLane => lanes j isLane (by omega)
  | answer isLast => exact absurd isLast upTo.ne
  | predicate reads => simp at reads
  | ringCount ring | ringEmpty ring | ringOccupied ring | ringTail ring | ringRead ring => simp at ring
  | disable writes | sample writes | countLane writes | periodLane writes | enable writes => cases writes

/-- Lines from `b` to `t` that complete `CLK.GETMS` after passing through the state in which its bracket has just been
left. -/
def PassesWhole (ls : List Line) (b t : State) : Prop :=
  ∃ ls₁ ls₂ u, ls = ls₁ ++ ls₂ ∧ runLines ls₁ b = .next u ∧ Whole u ∧ Finishes ls₂ u t

theorem PassesWhole.cons (performs : performLine l b = .next b') (later : PassesWhole ls b' t) :
    PassesWhole (l :: ls) b t := by
  obtain ⟨ls₁, ls₂, u, split, run, whole, rest⟩ := later
  exact ⟨l :: ls₁, ls₂, u, congrArg (l :: ·) split, (runLines_cons performs).trans run, whole, rest⟩

theorem Reading.passesWhole (reading : Reading b k) (upTo : k < lastMicro b.params.wDp .clkGetMs) (h : Finishes ls b t)
    (answered : t.resp = some r) : PassesWhole ls b t := by
  induction h generalizing k with
  | done idle => cases idle.symm.trans reading.main
  | @step l ls b b' t _ performs rest ih =>
    obtain ⟨params, -⟩ := setting_eq_iff.mp (performLine_keeps_setting performs)
    obtain rfl | waits | ⟨ctx, effect⟩ := (LineEffect.of_perform performs).of_busy reading.main
    · cases rest.silent_of_reset.symm.trans answered
    · exact .cons performs (ih (reading.of_waits waits) (params ▸ upTo) answered)
    · obtain ⟨upTo', reading'⟩ | whole := reading.of_micro upTo ctx effect
      · exact .cons performs (ih reading' (params ▸ upTo') answered)
      · exact .cons performs ⟨[], ls, b', rfl, rfl, whole, rest⟩

/-- Settles O58: the value answered is the one `ACC` has where the bracket has just been left. -/
theorem noTornRead : Obligations.NoTornRead := by
  intro s t ls d ready run idle answered first
  obtain ⟨b, starts, rest⟩ := runLines_cons_next_iff.mp run
  obtain rfl : { silent s with micro.main := .busy .clkGetMs 1 } = b := by
    cases LineEffect.of_perform starts with
    | start _ decodes => cases decodes; rfl
    | startIllegal _ none_ => cases none_
  have reading : Reading { silent s with micro.main := .busy .clkGetMs 1 } 1 :=
    ⟨rfl, fun inside => by omega, fun j _ read => by omega⟩
  have finishes : Finishes ls { silent s with micro.main := .busy .clkGetMs 1 } t :=
    .of_run rest idle fun ls₁ ls₂ u split more run' => first ls₁ ls₂ u split more ((runLines_cons starts).trans run')
  obtain ⟨ls₁, ls₂, u, split, run', whole, rest'⟩ := reading.passesWhole (one_lt_lastMicro _ rfl) finishes answered
  have value : d = u.micro.tmp := congrArg Response.d (rest'.answer_of_last whole.main answered)
  have params : u.params = s.params := runLines_keeps_params ((runLines_cons starts).trans run')
  refine ⟨ls₁, ls₂, u, _, split, ?_, (runLines_cons starts).trans run', whole.ctx, whole.main, ?_, ?_, ?_⟩
  · rintro rfl
    cases rest' with
    | done idle => cases idle.symm.trans whole.main
  · exact one_lt_lastMicro _ rfl
  · rw [params]
  · exact whole.value.symm.trans value.symm

end Sys2Proof.Machine
end

section
/-! The critical section and the interrupt setup of Layer A (R120 to R124): what each command answers and writes, and that
matched sections give `IE` back. -/

namespace Sys2Proof.Machine

variable {s t u v w : State} {i : Instr} {xs : List State} {token : Word}

/-! ## The commands -/

/-- Settles O12: the token is the `IE` found, and at Layer B the first micro-step takes it and clears `IE`. -/
theorem critEnterReturnsAndClearsIe : Obligations.CritEnterReturnsAndClearsIe := by
  refine ⟨rfl, fun s => ?_, fun s t ctx main h => ?_⟩
  · rw [Effect.critEnter.exec_eq, ofNat_bitNat]
  · rw [performLine, microStep_of_main ctx main] at h
    cases h
    exact ⟨rfl, rfl⟩

/-- Settles O13: the token is bit 0 of the word. -/
theorem critExitWritesIe : Obligations.CritExitWritesIe :=
  ⟨fun token => by cases token <;> rfl, fun token _ => (Effect.critExit token).exec_eq⟩

/-- Settles O14: each channel has its own bit of the word and of the handler table. -/
theorem irqBindSetsBound : Obligations.IrqBindSetsBound := by
  refine ⟨fun ch => by cases ch <;> rfl, fun ch s => ?_⟩
  cases ch with
  | tick => exact ⟨_, Effect.bindTick.exec_eq, rfl, fun c => by cases c <;> rfl, rfl⟩
  | rx => exact ⟨_, Effect.bindRx.exec_eq, rfl, fun c => by cases c <;> rfl, rfl⟩

/-! ## Who writes `IE` (R124) -/

theorem Effect.keeps_ie_of_not_crit (h : Effect s i t) (notEnter : i ≠ .critEnter)
    (notExit : ∀ token, i ≠ .critExit token) : t.ie = s.ie := by
  cases h with
  | critEnter => exact absurd rfl notEnter
  | critExit token => exact absurd rfl (notExit token)
  | _ => rfl

/-- Settles O16: of the effects only those of the two commands name `IE`. -/
theorem onlyCriticalSectionWritesIe : Obligations.OnlyCriticalSectionWritesIe :=
  fun _ _ _ h notEnter notExit => (Effect.of_exec h).keeps_ie_of_not_crit notEnter notExit

/-! ## Nested sections (R123) -/

/-- A section masks on entry, and its token carries the `IE` found to its exit, whatever happens between. -/
theorem exit_restores_ie (enter : exec .critEnter s = .next u) (answer : u.resp = some ⟨.ok, token⟩)
    (leave : exec (.critExit (token.getLsbD 0)) v = .next w) : u.ie = false ∧ w.ie = s.ie := by
  cases Effect.of_exec enter
  cases Effect.of_exec leave
  cases answer
  exact ⟨rfl, by cases s.ie <;> rfl⟩

/-- Matched sections inside a section find `IE = 0` and give it back, so `IE` is 0 at every state visited. -/
theorem Balanced.keeps_masked (h : Balanced s xs t) (masked : s.ie = false) :
    (∀ x ∈ xs, x.ie = false) ∧ t.ie = false := by
  induction h with
  | refl => exact ⟨by simp, masked⟩
  | other i before notEnter notExit step ih =>
    obtain ⟨visited, last⟩ := ih masked
    have kept := ((Effect.of_exec step).keeps_ie_of_not_crit notEnter notExit).trans last
    simp only [List.forall_mem_append, List.forall_mem_singleton]
    exact ⟨⟨visited, kept⟩, kept⟩
  | section_ before enter answer inside leave ihBefore ihInside =>
    obtain ⟨visited, last⟩ := ihBefore masked
    obtain ⟨entered, restored⟩ := exit_restores_ie enter answer leave
    obtain ⟨visitedInside, -⟩ := ihInside entered
    have left_ := restored.trans last
    simp only [List.forall_mem_append, List.forall_mem_singleton]
    exact ⟨⟨⟨⟨visited, entered⟩, visitedInside⟩, left_⟩, left_⟩

/-- Settles O15: the entry masks, matched sections keep it so, and the exit gives back what the entry found. -/
theorem nestedSectionsRestoreIe : Obligations.NestedSectionsRestoreIe := by
  intro s u v w xs token enter answer inside leave
  obtain ⟨entered, restored⟩ := exit_restores_ie enter answer leave
  obtain ⟨visited, -⟩ := inside.keeps_masked entered
  refine ⟨fun x mem => ?_, restored⟩
  have masked : x.ie = false := by
    obtain rfl | mem := List.mem_cons.mp mem
    · exact entered
    · exact visited x mem
  exact ⟨masked, not_dispatchable (.inl masked), not_dispatchable (.inl masked)⟩

end Sys2Proof.Machine
end

section
/-! The two dispatches of Layer A (R134, R135): when they happen, what they clear, and that they commute (R140). -/

namespace Sys2Proof.Machine

variable {s t : State} {ch : Channel}

/-- The dispatch step of a channel (R66, R135). -/
def handlerOf : Channel → Instr
  | .tick => .isrTick
  | .rx => .isrRx

theorem encode_handlerOf (ch : Channel) : encode (handlerOf ch) = dispatchWord ch := by
  cases ch <;> rfl

theorem handlerOf_not_host (ch : Channel) : (handlerOf ch).cls ≠ .hostCommand := by
  cases ch <;> decide

theorem performLine_dispatchWord (ch : Channel) (s : State) :
    performLine (.word (dispatchWord ch)) s = exec (handlerOf ch) s := by
  cases ch <;> rfl

/-! ## When a handler is dispatched -/

/-- A dispatch that is not enabled stops by name (R69). -/
theorem exec_handler_of_not (notEnabled : dispatchable ch s = false) :
    exec (handlerOf ch) s = .fault (.dispatchNotEnabled ch) := by
  cases ch with
  | tick => exact dispatch_of_not (body := tickHandler) notEnabled
  | rx => exact dispatch_of_not (body := rxHandler) notEnabled

/-- Where `HEAD` is an index of the ring a dispatch asks for nothing but what R134 asks for. -/
theorem exists_handler_next_iff (index : s.head.toNat < s.params.n) :
    (∃ t, exec (handlerOf ch) s = .next t) ↔ dispatchable ch s = true := by
  constructor
  · rintro ⟨t, h⟩
    exact dispatchable_of_dispatchWord ((performLine_dispatchWord ch s).trans h)
  · intro enabled
    cases ch with
    | tick => exact ⟨_, (Effect.tick enabled).exec_eq⟩
    | rx =>
      by_cases full : s.count.toNat = s.params.n
      · exact ⟨_, (Effect.rxDrop enabled full).exec_eq⟩
      · exact ⟨_, (Effect.rxPush enabled full index).exec_eq⟩

/-- Settles O39: the condition of R134, spelled out for each channel. -/
theorem dispatchCondition : Obligations.DispatchCondition := by
  intro s _ ring
  obtain ⟨-, index, -⟩ := ring
  exact ⟨(exists_handler_next_iff (ch := .tick) index).trans dispatchable_iff,
    (exists_handler_next_iff (ch := .rx) index).trans dispatchable_iff,
    exec_handler_of_not (ch := .tick), exec_handler_of_not (ch := .rx)⟩

/-- A dispatch takes the request it serves with it (R93, R108). -/
theorem Effect.clears_pending (h : Effect s (handlerOf ch) t) : pending t ch = false := by
  cases ch <;> cases h <;> rfl

/-- The handler just run is not enabled again (R139). -/
theorem Effect.not_enabled_again (h : Effect s (handlerOf ch) t) :
    exec (handlerOf ch) t = .fault (.dispatchNotEnabled ch) :=
  exec_handler_of_not (not_dispatchable (.inr (.inr h.clears_pending)))

/-! ## Both handlers -/

/-- Settles O41: neither handler reads or writes what makes the other dispatchable or what the other reads. -/
theorem handlersCommute : Obligations.HandlersCommute := by
  intro s _ ring tick rx
  obtain ⟨-, index, -⟩ := ring
  by_cases full : s.count.toNat = s.params.n
  · exact ⟨_, _, _, Effect.exec_eq (.tick tick), Effect.exec_eq (.rxDrop rx full), Effect.exec_eq (.rxDrop rx full),
      Effect.exec_eq (.tick tick)⟩
  · exact ⟨_, _, _, Effect.exec_eq (.tick tick), Effect.exec_eq (.rxPush rx full index),
      Effect.exec_eq (.rxPush rx full index), Effect.exec_eq (.tick tick)⟩

end Sys2Proof.Machine
end

section
/-! The source events (R132, R133, R149): what each latches, and that it changes nothing else. -/

namespace Sys2Proof.Machine

/-- The number a step word is: its code in the top byte and its operand in the low half (R60). -/
theorem encode_toNat (i : Instr) : (encode i).toNat = i.opcode.toNat * 2 ^ 24 + i.operandField.toNat := by
  rw [encode, toNat_ofFields, BitVec.toNat_zero, Nat.zero_mul, Nat.add_zero]

theorem encode_evRx (d : Elem) : encode (.evRx d) = 0x81000000#32 + d.setWidth 32 := by
  have narrow := d.isLt
  apply BitVec.eq_of_toNat_eq
  simp only [encode_toNat, Instr.opcode, Instr.operandField, BitVec.toNat_add, BitVec.toNat_setWidth, BitVec.toNat_ofNat]
  omega

/-- Settles O36: `EV.TICK` asks for `SRC_EN` alone. -/
theorem tickEventRaisesPending : Obligations.TickEventRaisesPending := by
  refine ⟨rfl, fun s => ⟨fun enabled => (Effect.tickEvent enabled).exec_eq, fun disabled => ?_⟩⟩
  simp [exec, execEvTick, disabled]

/-- Settles O37: the datum is latched whole, or meets one that waits. -/
theorem receiveEventLatchesDatum : Obligations.ReceiveEventLatchesDatum := by
  refine ⟨encode_evRx, fun d s narrow _ => ?_⟩
  have whole : fitElem s.params.wT d = d := fitElem_of_lt narrow
  cases waiting : s.rxPend with
  | false =>
    exact ⟨_, (Effect.rxEvent d waiting).exec_eq, rfl, rfl, fun _ => ⟨whole, rfl⟩, nofun, nofun, nofun,
      rxStored_of_main, rfl⟩
  | true =>
    exact ⟨_, (Effect.rxOverrun d waiting).exec_eq, rfl, rfl, nofun, fun _ => rfl,
      fun _ notStored => by simp [notStored, whole], fun _ stored => by simp [stored], rxStored_of_main, rfl⟩

/-- Settles O38. -/
theorem environmentEventSetsLevels : Obligations.EnvironmentEventSetsLevels :=
  ⟨fun ok ti => by cases ok <;> cases ti <;> rfl, fun ok ti _ => (Effect.envEvent ok ti).exec_eq⟩

end Sys2Proof.Machine
end

section
/-! Requests over runs of Layer A: a request waits until its handler is dispatched, further ones merge with it (R139), and a
fair dispatcher serves it (R149). -/

namespace Sys2Proof.Machine

variable {s t : State} {ch : Channel} {i : Instr} {l : Line} {ls : List Line}

/-! ## One line -/

/-- Only its own handler takes a request (R31, R32). -/
theorem Effect.keeps_pending (h : Effect s i t) (other : i ≠ handlerOf ch) (waits : pending s ch = true) :
    pending t ch = true := by
  have written : pending t ch = true ∨ i = handlerOf ch ∨ pending t ch = pending s ch := by
    cases ch with
    | tick => exact h.tickPend_cases.imp And.right (Or.imp_left And.left)
    | rx => exact h.rxPend_cases.imp And.right (Or.imp_left And.left)
  obtain raised | served | kept := written
  · exact raised
  · exact absurd served other
  · exact kept.trans waits

theorem Effect.keeps_bound (h : Effect s i t) (isBound : bound s ch = true) : bound t ch = true := by
  obtain ⟨-, set⟩ | kept := h.bound_cases ch
  · exact set
  · exact kept.trans isBound

/-- A Layer A line answers an illegal word or runs an operation, an event or dispatch only where its word stands there. -/
theorem LineEffect.exists_effect (h : LineEffect s l t) (layerA : l.layerA = true) :
    t = respondIllegal s ∨
      ∃ i, Effect s i t ∧ ∀ j : Instr, j.cls ≠ .hostCommand → l ≠ .word (encode j) → i ≠ j := by
  cases h with
  | command _ decodes _ effect | event decodes _ effect =>
    obtain ⟨word, -⟩ := decode_ok_iff_encode.mp decodes
    exact .inr ⟨_, effect, fun j _ other same => other (by rw [← same, word])⟩
  | port _ _ host effect => exact .inr ⟨_, effect, fun j notHost _ same => notHost (same ▸ host)⟩
  | illegal | portIllegal => exact .inl rfl
  | reset | start | startIllegal | enter | micro => cases layerA

/-! ## Fairness (R149) -/

/-- A channel that can be dispatched stays so until it is or `IE` falls. -/
theorem LineEffect.keeps_dispatchable (h : LineEffect s l t) (layerA : l.layerA = true)
    (other : l ≠ .word (dispatchWord ch)) (enabled : dispatchable ch s = true) (ie : t.ie = true) :
    dispatchable ch t = true := by
  obtain rfl | ⟨i, effect, avoids⟩ := h.exists_effect layerA
  · exact enabled
  · obtain ⟨-, isBound, waits, ctx⟩ := dispatchable_iff.mp enabled
    have notServed : i ≠ handlerOf ch := avoids _ (handlerOf_not_host ch) (by rwa [encode_handlerOf])
    exact dispatchable_iff.mpr ⟨ie, effect.keeps_bound isBound, effect.keeps_pending notServed waits,
      by rw [effect.keeps_micro, ctx]⟩

/-- Settles O46: never dispatched, the channel would stay dispatchable for ever, and fairness would dispatch it. -/
theorem fairDispatchServesPending : Obligations.FairDispatchServesPending := by
  intro ch lines states k run layerA fair ie isBound waits ctx
  obtain ⟨m, later, served⟩ : ∃ m, k ≤ m ∧ lines m = .word (dispatchWord ch) := by
    by_contra never
    refine never (fair k fun m later => ?_)
    induction m, later using Nat.le_induction with
    | base => exact dispatchable_iff.mpr ⟨ie k le_rfl, isBound, waits, ctx⟩
    | succ m later enabled =>
      exact (LineEffect.of_perform (run m)).keeps_dispatchable (layerA m) (fun served => never ⟨m, later, served⟩)
        enabled (ie (m + 1) (by omega))
  have dispatched : exec (handlerOf ch) (states m) = .next (states (m + 1)) := by
    rw [← performLine_dispatchWord, ← served]
    exact run m
  exact ⟨m, later, served, (Effect.of_exec dispatched).clears_pending⟩

/-! ## Requests that merge (R139) -/

/-- A run of Layer A without the words of certain events and dispatches keeps what every other operation keeps. -/
theorem run_avoiding {P : State → Prop} {avoided : Instr → Prop} (trace : ∀ j, avoided j → j.cls ≠ .hostCommand)
    (lines : ∀ l ∈ ls, l.layerA = true ∧ ∀ j, avoided j → l ≠ .word (encode j))
    (illegal : ∀ s, P s → P (respondIllegal s)) (step : ∀ s i t, Effect s i t → ¬ avoided i → P s → P t)
    (run : runLines ls s = .next t) (start : P s) : P t := by
  induction ls generalizing s with
  | nil => cases run; exact start
  | cons l ls ih =>
    obtain ⟨u, performs, rest⟩ := runLines_cons_next_iff.mp run
    obtain ⟨layerA, absent⟩ := lines l List.mem_cons_self
    refine ih (fun k mem => lines k (List.mem_cons_of_mem l mem)) rest ?_
    obtain rfl | ⟨i, effect, avoids⟩ := (LineEffect.of_perform performs).exists_effect layerA
    · exact illegal s start
    · exact step s i u effect (fun avoid => avoids i (trace i avoid) (absent i avoid) rfl) start

/-- A tick is requested and the accumulator stands at a value (R22, R31). -/
def TickWaits (acc : Word) (s : State) : Prop := s.tickPend = true ∧ s.acc = acc

/-- A datum waits for the receive handler (R32, R33). -/
def DatumWaits (d : Elem) (s : State) : Prop := s.rxPend = true ∧ s.rxData = d

/-- Only `ISR.TICK` takes a requested tick or moves the accumulator (R108, R113). -/
theorem TickWaits.of_run {acc : Word} (waits : TickWaits acc s) (lines : undispatched .tick ls)
    (run : runLines ls s = .next t) : TickWaits acc t := by
  refine run_avoiding (avoided := (· = .isrTick)) (by rintro _ rfl; exact nofun) (fun l mem => ?_) (fun _ kept => kept)
    (fun s i t effect other kept => ?_) run waits
  · exact ⟨(lines l mem).1, fun j same => by rw [same]; exact (lines l mem).2⟩
  · exact ⟨effect.keeps_pending (ch := .tick) other kept.1, (effect.keeps_acc other).trans kept.2⟩

/-- Only `ISR.RX` takes a waiting datum, and only a further one can replace it (R93, R133). -/
theorem DatumWaits.of_run {d : Elem} (waits : DatumWaits d s) (lines : undispatched .rx ls)
    (noDatum : ∀ l ∈ ls, ∀ d, l ≠ .word (encode (.evRx d))) (run : runLines ls s = .next t) : DatumWaits d t := by
  refine run_avoiding (avoided := fun j => j = .isrRx ∨ ∃ d, j = .evRx d) ?_ (fun l mem => ?_) (fun _ kept => kept)
    (fun s i t effect other kept => ?_) run waits
  · rintro _ (rfl | ⟨d, rfl⟩) <;> exact nofun
  · refine ⟨(lines l mem).1, ?_⟩
    rintro _ (rfl | ⟨d, rfl⟩)
    · exact (lines l mem).2
    · exact noDatum l mem d
  · obtain ⟨notServed, notReplaced⟩ := not_or.mp other
    exact ⟨effect.keeps_pending (ch := .rx) notServed kept.1,
      (effect.keeps_rxData fun d same => notReplaced ⟨d, same⟩).trans kept.2⟩

/-- A receive event leaves its datum waiting, or on an overrun the one that waited (R133). -/
theorem Effect.datum_waits {d : Elem} (h : Effect s (.evRx d) t) (narrow : d.toNat < 2 ^ s.params.wT) :
    DatumWaits d t ∨ s.rxPend = true ∧ DatumWaits s.rxData t := by
  have whole : fitElem s.params.wT d = d := fitElem_of_lt narrow
  cases h with
  | rxEvent => exact .inl ⟨rfl, whole⟩
  | rxOverrun _ waiting =>
    by_cases keepsOld : (rxStored s || Config.overrunKeepsOld s.draws) = true
    · exact .inr ⟨waiting, rfl, if_pos keepsOld⟩
    · exact .inl ⟨rfl, (if_neg keepsOld).trans whole⟩

/-- With room the receive handler pushes the datum that waits (R88, R93). -/
theorem Effect.pushes_waiting {d : Elem} (h : Effect s .isrRx t) (legal : s.params.legal = true) (ring : s.ringInv)
    (waits : DatumWaits d s) (narrow : d.toNat < 2 ^ s.params.wT) (room : s.count.toNat < s.params.n) :
    t.queue = s.queue ++ [d] := by
  cases h.queue legal ring with
  | push _ appended => rw [appended, waits.2, fitElem_of_lt narrow]
  | keep _ full => exact absurd (full rfl) room.ne

/-- The ring invariants (R81), for the parameters given. -/
def RingSound (p : Params) (s : State) : Prop := s.params = p ∧ s.ringInv

theorem RingSound.of_effect {p : Params} (sound : RingSound p s) (legal : p.legal = true) (h : Effect s i t) :
    RingSound p t := by
  obtain ⟨rfl, ring⟩ := sound
  exact ⟨h.keeps_params, h.keeps_ringInv legal ring⟩

theorem RingSound.of_run {p : Params} (sound : RingSound p s) (legal : p.legal = true) (lines : undispatched ch ls)
    (run : runLines ls s = .next t) : RingSound p t := by
  obtain ⟨rfl, ring⟩ := sound
  exact (run_balances legal ring (fun l mem => (lines l mem).1) run).2

/-- The half of R139 on the tick channel. -/
theorem tickRequestsMerge {s t t' u u' v : State} {between before : List Line} (noDispatch : undispatched .tick between)
    (noDispatch' : undispatched .tick before) (first : exec .evTick s = .next t) (run : runLines between t = .next t')
    (second : exec .evTick t' = .next u) (run' : runLines before u = .next u') (handler : exec .isrTick u' = .next v) :
    u = { t' with resp := none } ∧ v.acc.toNat = (s.acc.toNat + u'.tickPeriodMs.toNat) % 2 ^ 32 ∧
      exec .isrTick v = .fault (.dispatchNotEnabled .tick) := by
  have requested : TickWaits s.acc t := by cases Effect.of_exec first; exact ⟨rfl, rfl⟩
  obtain ⟨pend, acc⟩ := requested.of_run noDispatch run
  have merged : u = { t' with resp := none } := by cases Effect.of_exec second; rw [← pend]
  have again : TickWaits s.acc u := by rw [merged]; exact ⟨pend, acc⟩
  obtain ⟨-, acc'⟩ := again.of_run noDispatch' run'
  refine ⟨merged, ?_, (Effect.of_exec handler).not_enabled_again (ch := .tick)⟩
  cases Effect.of_exec handler
  rw [accumulate_toNat, acc']

/-- The half of R139 on the receive channel. -/
theorem receivedDataMerge {s t t' u u' v : State} {between before : List Line} {d₁ d₂ : Elem}
    (legal : s.params.legal = true) (ring : s.ringInv) (narrow₁ : d₁.toNat < 2 ^ s.params.wT)
    (narrow₂ : d₂.toNat < 2 ^ s.params.wT) (free : s.rxPend = false) (noDispatch : undispatched .rx between)
    (noDispatch' : undispatched .rx before) (noDatum : ∀ l ∈ between ++ before, ∀ d, l ≠ .word (encode (.evRx d)))
    (first : exec (.evRx d₁) s = .next t) (run : runLines between t = .next t')
    (second : exec (.evRx d₂) t' = .next u) (run' : runLines before u = .next u') (handler : exec .isrRx u' = .next v) :
    (u'.count.toNat < u'.params.n → v.queue = u'.queue ++ [d₁] ∨ v.queue = u'.queue ++ [d₂]) ∧
      exec .isrRx v = .fault (.dispatchNotEnabled .rx) := by
  rw [List.forall_mem_append] at noDatum
  obtain ⟨noDatum, noDatum'⟩ := noDatum
  have effect₁ := Effect.of_exec first
  have effect₂ := Effect.of_exec second
  have sound : RingSound s.params t' := (RingSound.of_effect ⟨rfl, ring⟩ legal effect₁).of_run legal noDispatch run
  have sound' : RingSound s.params u' := (sound.of_effect legal effect₂).of_run legal noDispatch' run'
  have latched : DatumWaits d₁ t' := by
    obtain latched | ⟨waiting, -⟩ := effect₁.datum_waits narrow₁
    · exact latched.of_run noDispatch noDatum run
    · cases free.symm.trans waiting
  have survives : DatumWaits d₁ u' ∨ DatumWaits d₂ u' := by
    obtain new | ⟨-, old⟩ := effect₂.datum_waits (sound.1 ▸ narrow₂)
    · exact .inr (new.of_run noDispatch' noDatum' run')
    · rw [latched.2] at old
      exact .inl (old.of_run noDispatch' noDatum' run')
  obtain ⟨params, ring'⟩ := sound'
  rw [← params] at legal narrow₁ narrow₂
  have served := Effect.of_exec handler
  exact ⟨fun room => survives.imp (served.pushes_waiting legal ring' · narrow₁ room)
    (served.pushes_waiting legal ring' · narrow₂ room), served.not_enabled_again (ch := .rx)⟩

/-- Settles O40: a request made while one waits leaves one request, and its handler takes it. -/
theorem requestsMerge : Obligations.RequestsMerge :=
  ⟨fun _ _ _ _ _ _ _ _ => tickRequestsMerge,
    fun _ _ _ _ _ _ _ _ _ _ => receivedDataMerge⟩

end Sys2Proof.Machine
end

section
/-! Operations in progress at Layer B: they go on (R137, R172, R177), and a handler lets no other start and keeps every
request but those it clears (R136 to R138). -/

namespace Sys2Proof.Machine

variable {s t : State} {u : Nat} {cmd : Instr} {ch : Channel}

/-! ## Every micro-step can be made -/

/-- The micro-steps of a command are numbered up to its last, so what has one is a command (R91, R112). -/
theorem host_of_le_lastMicro {d : DataPath} (low : 1 ≤ u) (upTo : u ≤ lastMicro d cmd) : cmd.cls = .hostCommand := by
  cases cmd with
  | evTick | evRx | evEnv | isrTick | isrRx => exact absurd (low.trans upTo) (by simp [lastMicro])
  | _ => rfl

/-- `RB.POP` and `RB.PEEK` read at the `TAIL` they have read, an index of the ring (R81, R91). -/
theorem RingInMain.read_index (ring : RingInMain s (.busy cmd 5)) (reads : cmd = .rbPop ∨ cmd = .rbPeek) :
    s.micro.t.toNat < s.params.n := by
  obtain rfl | rfl := reads
  · obtain ⟨-, -, tail, inv⟩ : ringInPop s 5 := ring
    obtain ⟨-, -, index, -⟩ : s.ringInv := inv
    rwa [tail ⟨le_rfl, by omega⟩]
  · obtain ⟨-, -, tail, inv⟩ : ringInPeek s 5 := ring
    obtain ⟨-, -, index, -⟩ := inv
    rwa [tail rfl]

theorem exists_microIsrTick (low : 1 ≤ u) (upTo : u ≤ 3 + s.params.wDp.lanes) : ∃ t, microIsrTick u s = .next t :=
  exists_next_ite (fun _ => by omega) fun _ => exists_next_ite (fun _ => ⟨_, rfl⟩) fun _ =>
    exists_next_ite (fun _ => ⟨_, rfl⟩) fun _ => exists_next_ite (fun _ => ⟨_, rfl⟩) fun _ =>
    exists_next_ite (fun _ => ⟨_, rfl⟩) fun _ => by omega

/-- Only the write of `BUF` asks for more than the number of the micro-step, an index (R57, R91). -/
theorem exists_microIsrRx (low : 1 ≤ u) (upTo : u ≤ 8) (index : u = 4 → s.micro.isrH.toNat < s.params.n) :
    ∃ t, microIsrRx u s = .next t := by
  by_cases writes : u = 4
  · subst writes
    simp only [microIsrRx, writeBuf, index rfl, if_true]
    exact ⟨_, rfl⟩
  · obtain rfl | rfl | rfl | rfl | rfl | rfl | rfl : u = 1 ∨ u = 2 ∨ u = 3 ∨ u = 5 ∨ u = 6 ∨ u = 7 ∨ u = 8 := by omega
    all_goals exact ⟨_, rfl⟩

theorem exists_microStep_of_main (gate : s.gateInv) (coherent : s.ringCoherent) (ctx : s.micro.ctx = .main)
    (main : s.micro.main = .busy cmd u) : ∃ t, microStep s = .next t := by
  obtain ⟨mainGate, -⟩ := gateInv_iff.mp gate
  rw [ringCoherent_of_main ctx, main] at coherent
  rw [main] at mainGate
  obtain ⟨low, upTo, -⟩ := mainGate
  rw [microStep_of_main ctx main]
  exact exists_microMain (host_of_le_lastMicro low upTo) low upTo fun reads fifth => (fifth ▸ coherent).read_index reads

theorem exists_microStep_of_isr (gate : s.gateInv) (coherent : s.ringCoherent) (ctx : s.micro.ctx = .isr ch u) :
    ∃ t, microStep s = .next t := by
  obtain ⟨-, isrGate⟩ := gateInv_iff.mp gate
  rw [ctx] at isrGate
  obtain ⟨low, upTo, -⟩ := isrGate
  simp only [microStep, ctx]
  cases ch with
  | tick => exact exists_microIsrTick low upTo
  | rx =>
    refine exists_microIsrRx low upTo fun fourth => ?_
    subst fourth
    simp only [State.ringCoherent, ctx] at coherent
    obtain ⟨-, -, head, inv⟩ := coherent
    obtain ⟨-, index, -⟩ : s.ringInv := inv
    rwa [head ⟨le_rfl, by omega⟩]

/-- Settles O52: the gate bounds the micro-step, and a coherent ring has the element it reads or writes. -/
theorem operationsInProgressGoOn : Obligations.OperationsInProgressGoOn := by
  intro s _ gate coherent busy
  change ∃ t, microStep s = .next t
  cases ctx : s.micro.ctx with
  | isr ch u => exact exists_microStep_of_isr gate coherent ctx
  | main =>
    cases main : s.micro.main with
    | idle => simp [hostReady, ctx, main] at busy
    | busy cmd u => exact exists_microStep_of_main gate coherent ctx main

/-! ## While a handler holds the core -/

theorem not_dispatchable_in_handler (ctx : s.micro.ctx = .isr ch u) (c : Channel) : dispatchable c s = false := by
  simp [dispatchable, ctx]

/-- With the main context holding the core the rest of R134 decides. -/
theorem dispatchable_of_main (ctx : s.micro.ctx = .main) (c : Channel) :
    dispatchable c s = (s.ie && bound s c && pending s c) := by
  simp [dispatchable, ctx]

/-- A datum can always arrive (R133). -/
theorem exists_effect_evRx (d : Elem) (s : State) : ∃ t, Effect s (.evRx d) t := by
  cases waiting : s.rxPend with
  | false => exact ⟨_, .rxEvent d waiting⟩
  | true => exact ⟨_, .rxOverrun d waiting⟩

/-- Of the micro-steps of a handler the clearing one alone writes a pending flag, its own (R91, R112). -/
theorem IsrEffect.pending_eq (h : IsrEffect s ch u t) (c : Channel) :
    pending t c = if c = ch ∧ u = clearIsrMicro s.params.wDp ch then false else pending s c := by
  cases h with
  | tickClear | rxClear => cases c <;> simp [pending, clearIsrMicro]
  | leave isLast =>
    have notClearing : u ≠ clearIsrMicro s.params.wDp ch := by
      rw [isLast]; cases ch <;> simp [lastIsrMicro, clearIsrMicro]
    exact (if_neg fun clears => notClearing clears.2).symm
  | _ => exact (if_neg fun ⟨_, clearing⟩ => by simp only [clearIsrMicro] at clearing; omega).symm

/-- The return changes `CTX` alone (R137). -/
theorem microStep_of_last (ctx : s.micro.ctx = .isr ch (lastIsrMicro s.params.wDp ch)) :
    microStep s = .next { s with micro.ctx := .main, resp := none } := by
  cases ch with
  | tick =>
    rw [microStep_of_tick ctx, lastIsrMicro, show 3 + s.params.wDp.lanes = 2 + s.params.wDp.lanes + 1 by omega]
    exact microIsrTick_leave
  | rx => simp only [microStep, ctx, lastIsrMicro]; rfl

/-- Settles O56: a dispatch needs `CTX = MAIN`, and only the clearing micro-step lowers a flag. -/
theorem handlersDoNotNest : Obligations.HandlersDoNotNest := by
  intro s ch u ctx
  have notEnabled := not_dispatchable_in_handler ctx
  refine ⟨fun c => by simp [performLine, startHandler, notEnabled c], exec_handler_of_not (notEnabled .tick),
    exec_handler_of_not (notEnabled .rx), fun enabled => (Effect.tickEvent enabled).exec_eq, fun d => ?_,
    fun t h c => ?_, fun isLast => ?_⟩
  · obtain ⟨t, effect⟩ := exists_effect_evRx d s
    have raised : t.rxPend = true ∧ t.tickPend = s.tickPend := by cases effect <;> exact ⟨rfl, rfl⟩
    exact ⟨t, effect.exec_eq, raised.1, raised.2, effect.keeps_micro⟩
  · obtain ⟨_, _, ctx', effect⟩ | ⟨main, -⟩ := microStep_next h
    · cases ctx.symm.trans ctx'
      exact effect.pending_eq c
    · cases ctx.symm.trans main
  · subst isLast
    exact ⟨_, microStep_of_last ctx, rfl, dispatchable_of_main rfl⟩

end Sys2Proof.Machine
end

section
/-! Reset (R160, R161), and the answers that last until the consumer pops (R175). -/

namespace Sys2Proof.Machine

variable {s t : State} {i : Instr}

/-! ## Reset -/

/-- Settles O9: each value is the one the reset state is written with. -/
theorem resetValues : Obligations.ResetValues :=
  fun _ => ⟨rfl, rfl, rfl, rfl, rfl, rfl, rfl, rfl, rfl, rfl, rfl, rfl, rfl, rfl, rfl⟩

/-- The open parameters are picked within the bounds of R5, whatever they are picked from. -/
theorem configParams_legal : Config.params.legal = true := by
  have capacity : Config.capacityChoice % 255 < 255 := Nat.mod_lt _ (by decide)
  exact (Params.legal_iff _).mpr
    ⟨Nat.succ_pos _, capacity, by decide, by decide, Nat.succ_pos Config.frequencyChoice⟩

/-- The reset state is what resetting it gives. -/
theorem resetWith_dataInv (p : Params) : (State.resetWith p).dataInv :=
  resetBlock_dataInv (State.resetWith p)

/-- The Off state (R104, R161). -/
theorem resetWith_clockInv (p : Params) : (State.resetWith p).clockInv := .inr ⟨rfl, rfl, rfl⟩

theorem queue_resetWith (p : Params) : (State.resetWith p).queue = [] :=
  List.eq_nil_of_length_eq_zero (length_queue _)

/-- Settles O10: with nothing in progress (R161) the gate asks nothing, and ring and clock are to be as at rest. -/
theorem resetMeetsInvariants : Obligations.ResetMeetsInvariants := by
  refine ⟨configParams_legal, fun p legal => ?_⟩
  have ready : hostReady (State.resetWith p) = true := rfl
  exact ⟨resetWith_dataInv p, gateInv_of_ready ready, (ringCoherent_of_ready ready).mpr (resetWith_ringInv legal),
    (clockCoherent_of_idle rfl).mpr (resetWith_clockInv p), queue_resetWith p⟩

/-- Settles O11: the line is the reset of the block from every state, also in the middle of an operation (R160). -/
theorem platformResetRestoresResetState : Obligations.PlatformResetRestoresResetState :=
  fun s => ⟨resetBlock s, rfl, rfl⟩

/-! ## Answers that last -/

/-- But for a pop, `COUNT` changes by a push alone, which needs room (R90, R93). -/
theorem Effect.count_cases (h : Effect s i t) (notPop : i ≠ .rbPop) :
    t.count = s.count ∨ (s.count.toNat ≠ s.params.n ∧ t.count = s.count + 1#8) := by
  by_cases push : i = .isrRx
  · subst push
    cases h with
    | rxDrop => exact .inl rfl
    | rxPush _ room => exact .inr ⟨room, rfl⟩
  · exact .inl (h.keeps_count push notPop)

/-- Settles O26: a push leaves the buffer non-empty, and into a full one there is none. -/
theorem availabilityAndFullnessLastUntilPop : Obligations.AvailabilityAndFullnessLastUntilPop := by
  intro i s t legal ring h notPop
  have effect := Effect.of_exec h
  rw [effect.keeps_params]
  obtain same | ⟨room, pushed⟩ := effect.count_cases notPop
  · rw [same]
    exact ⟨id, id⟩
  · obtain ⟨-, small, -⟩ := (Params.legal_iff _).mp legal
    obtain ⟨upTo, -⟩ := ring
    have more := count_succ (Nat.lt_of_le_of_ne upTo room) small
    rw [pushed, more]
    exact ⟨fun _ => Nat.succ_ne_zero _, fun full => absurd full room⟩

end Sys2Proof.Machine
end
